-- ==== Sys2Proof/Word.lean ====
section
/-! DEFINITION. The word types of the block: the widths the spec writes (00_scope R16). -/

namespace Sys2Proof

/-- One bit, as the spec types `cs_n` and `xport_en` (10_state R20). -/
abbrev Bit := BitVec 1

/-- An 8-bit tap, payload or delta (00_scope R18, 30_encoding R70). -/
abbrev Byte := BitVec 8

/-- A CMD16 bus command word (30_encoding R78). -/
abbrev CmdWord := BitVec 16

/-- A HOSTOP request word `req[10:0]` (30_encoding R70). -/
abbrev ReqWord := BitVec 11

/-- The operation select field `op` of a request (30_encoding R70). -/
abbrev OpField := BitVec 3

/-- A resistance in ohms, `RES_BITS = 32` wide (00_scope R15). -/
abbrev Ohms := BitVec 32

end Sys2Proof
end

