-- ==== Sys2Proof/Config.lean ====
section
/-! DEFINITION. What an implementation fixes (00_scope R8 to R15, 10_state R37) and the free values of what
the spec leaves open. An opaque constant here has no value that a proof could use. -/

namespace Sys2Proof

/-- `MAX_TAP`, the upper bound of WiperPosition (00_scope R8). -/
def Config.maxTap : Nat := 255

/-- `XPORT_WORD_BITS`, the width of one transfer (00_scope R12). -/
def Config.xportWordBits : Nat := 16

/-- How many transport modes there are, less one: `XPORT_MODE` is "an element of an unspecified finite set"
(00_scope R13, decision D6). -/
opaque Config.xportModesLessOne : Nat

/-- The set `XPORT_MODE` is drawn from (00_scope R13). -/
abbrev Config.XportMode := Fin (Config.xportModesLessOne + 1)

/-- `XPORT_MODE`, open (00_scope R13, decision D6). -/
opaque Config.xportMode : Config.XportMode

/-- `XPORT_CLOCK_HZ`, open: a positive natural (00_scope R13, decision D6). -/
opaque Config.xportClockHz : PNat

/-- `WIPER_RESISTANCE_OHMS`, open (00_scope R10, decision D8). Its range is what 00_scope R15 leaves it at the
default ladder: `10000 * 255 + W < 2^32`, so `W < 4292417296`. -/
opaque Config.wiperOhms : Fin 4292417296

/-- FREE VALUE. The device's wiper where the spec does not say what it is: after a shutdown command and after an
interrupted frame (91_not_in_source N7, N10). The argument is the draw's number. -/
opaque Config.freeTap : Nat → Byte

/-- FREE VALUE. Whether the device is in shutdown where the spec does not say: after a write command to a device
in shutdown and after an interrupted frame (91_not_in_source N7, N10). The argument is the draw's number. -/
opaque Config.freeShutdown : Nat → Bool

/-- The implementation parameters of one instance of the block (00_scope R9 to R14). -/
structure Params where
  /-- `LADDER_RESISTANCE_OHMS`, written `L` (00_scope R9). -/
  ladderOhms : Nat
  /-- `WIPER_RESISTANCE_OHMS`, written `W` (00_scope R10). -/
  wiperOhms : Nat
  /-- `INIT_TAP` (00_scope R11). -/
  initTap : Byte
  /-- `XPORT_MODE` (00_scope R13). -/
  xportMode : Config.XportMode
  /-- `XPORT_CLOCK_HZ` (00_scope R13). -/
  xportClockHz : Nat
  /-- `XPORT_TIMEOUT` (00_scope R14): `none` is the reference behaviour, waits without a bound. -/
  xportTimeout : Option Nat
deriving DecidableEq, Repr

/-- The constraints the parameters must satisfy: 00_scope R15, `L` positive (decision D9) and the clock rate
positive (R13). -/
abbrev Params.wf (p : Params) : Prop :=
  0 < p.ladderOhms ∧ p.ladderOhms * 255 + p.wiperOhms < 2 ^ 32 ∧ p.ladderOhms + p.wiperOhms < 2 ^ 32 ∧
    0 < p.xportClockHz

/-- The parameters at the spec's defaults, the open ones open (00_scope R9 to R14). -/
def Params.default : Params where
  ladderOhms := 10000
  wiperOhms := Config.wiperOhms
  initTap := 128#8
  xportMode := Config.xportMode
  xportClockHz := Config.xportClockHz
  xportTimeout := none

end Sys2Proof
end

