-- ==== Sys2Proof/Syntax.lean ====
section
/-! DEFINITION. The fourteen rows of the opcode map (30_encoding R87) as one inductive, and the spec's assembly
lines (30_encoding R76). -/

namespace Sys2Proof

/-- One constructor per row of `opcode_table.json`. A field the row leaves open is an operand, the ignored and
don't-care ones too, so that a word and its instruction determine each other. -/
inductive Instr where
  /-- HOSTOP `op = 000`, spells no operation (30_encoding R74). -/
  | reserved000 (arg : Byte)
  /-- HOSTOP `op = 001` (44_lifecycle R190); `arg` is ignored but recorded (30_encoding R75). -/
  | init (arg : Byte)
  /-- HOSTOP `op = 010` (41_transaction_sequencer R130). -/
  | write (tap : Byte)
  /-- HOSTOP `op = 011` (41_transaction_sequencer R132). -/
  | shutdown (payload : Byte)
  /-- HOSTOP `op = 100` (42_wiper_bounds R150). -/
  | incres (delta : Byte)
  /-- HOSTOP `op = 101` (42_wiper_bounds R155). -/
  | decres (delta : Byte)
  /-- HOSTOP `op = 110` (43_resistance R176); `arg` is ignored but recorded (30_encoding R75). -/
  | getres (arg : Byte)
  /-- HOSTOP `op = 111`, spells no operation (30_encoding R74). -/
  | reserved111 (arg : Byte)
  /-- CMD16 `C = 00`, no operation (40_command_encoder R106). -/
  | cmdNop00 (x1 x0 : BitVec 2) (p1 p0 : Bit) (d : Byte)
  /-- CMD16 `C = 01, P0 = 1`, write data to pot 0 (40_command_encoder R104). -/
  | cmdWritePot0 (x1 x0 : BitVec 2) (p1 : Bit) (d : Byte)
  /-- CMD16 `C = 01, P0 = 0`, a write with no pot selected (40_command_encoder R107). -/
  | cmdWriteNopot (x1 x0 : BitVec 2) (p1 : Bit) (d : Byte)
  /-- CMD16 `C = 10, P0 = 1`, shutdown pot 0 (40_command_encoder R105). -/
  | cmdShutdownPot0 (x1 x0 : BitVec 2) (p1 : Bit) (d : Byte)
  /-- CMD16 `C = 10, P0 = 0`, a shutdown with no pot selected (40_command_encoder R107). -/
  | cmdShutdownNopot (x1 x0 : BitVec 2) (p1 : Bit) (d : Byte)
  /-- CMD16 `C = 11`, no operation (40_command_encoder R106). -/
  | cmdNop11 (x1 x0 : BitVec 2) (p1 p0 : Bit) (d : Byte)
deriving DecidableEq, Repr

/-- The two encoded formats (30_encoding, opening; R86). They meet at different ports: HOSTOP words at the request
port, CMD16 words at the device. -/
inductive Format where
  | hostop
  | cmd16
deriving DecidableEq, Repr

/-- The format a row belongs to (30_encoding R87). -/
def Instr.format : Instr → Format
  | .reserved000 _ => .hostop
  | .init _ => .hostop
  | .write _ => .hostop
  | .shutdown _ => .hostop
  | .incres _ => .hostop
  | .decres _ => .hostop
  | .getres _ => .hostop
  | .reserved111 _ => .hostop
  | .cmdNop00 _ _ _ _ _ => .cmd16
  | .cmdWritePot0 _ _ _ _ => .cmd16
  | .cmdWriteNopot _ _ _ _ => .cmd16
  | .cmdShutdownPot0 _ _ _ _ => .cmd16
  | .cmdShutdownNopot _ _ _ _ => .cmd16
  | .cmdNop11 _ _ _ _ _ => .cmd16

/-- The mnemonics of the spec's assembly syntax (30_encoding R76). -/
inductive AsmOp where
  | init
  | write
  | shutdown
  | incres
  | decres
  | getres
deriving DecidableEq, Repr

/-- One assembly line: a mnemonic, then at most one operand, a decimal or hexadecimal literal (30_encoding R76). -/
structure AsmLine where
  op : AsmOp
  operand : Option Nat
deriving DecidableEq, Repr

end Sys2Proof
end

