-- ==== Sys2Proof/WellFormed.lean ====
section
/-! DEFINITION. Well-formedness. The operands of `Instr` are bit vectors of the widths the encodings give them, so
every instruction is well formed; what can be ill formed is an assembly line (30_encoding R76). -/

namespace Sys2Proof

/-- Every instruction's operands fit their fields by their types (30_encoding R70, R78, R86). -/
def Instr.wellFormed : Instr → Bool
  | .reserved000 _ => true
  | .init _ => true
  | .write _ => true
  | .shutdown _ => true
  | .incres _ => true
  | .decres _ => true
  | .getres _ => true
  | .reserved111 _ => true
  | .cmdNop00 _ _ _ _ _ => true
  | .cmdWritePot0 _ _ _ _ => true
  | .cmdWriteNopot _ _ _ _ => true
  | .cmdShutdownPot0 _ _ _ _ => true
  | .cmdShutdownNopot _ _ _ _ => true
  | .cmdNop11 _ _ _ _ _ => true

/-- The arity check of 30_encoding R76: INIT and GETRES take no operand, the others take one. SHUTDOWN may stand
without one, as the pseudo-operation `shutdown` of R77. -/
def AsmLine.arityOk (l : AsmLine) : Bool :=
  match l.op with
  | .init => l.operand.isNone
  | .getres => l.operand.isNone
  | .shutdown => true
  | .write => l.operand.isSome
  | .incres => l.operand.isSome
  | .decres => l.operand.isSome

/-- The range check of 30_encoding R76: "An operand outside 0..255 is an assembly error". -/
def AsmLine.rangeOk (l : AsmLine) : Bool :=
  match l.operand with
  | none => true
  | some n => decide (n ≤ 255)

/-- An assembly line that spells an operation (30_encoding R76, R77). -/
def AsmLine.wellFormed (l : AsmLine) : Bool :=
  l.arityOk && l.rangeOk

end Sys2Proof
end

