-- ==== Sys2Proof/Decode.lean ====
section
/-! DEFINITION. The decoders of the two formats and the encoder, written from the opcode map (30_encoding R70 to
R75, R78 to R80, R87). Each decoder is total on the words of its format; a number too wide for the format is
rejected by name. -/

namespace Sys2Proof

/-- Why a number is no word of a format (30_encoding R86: both formats have a fixed length). -/
inductive DecodeError where
  /-- Wider than the 11 bits of a HOSTOP request. -/
  | hostopTooWide
  /-- Wider than the 16 bits of a CMD16 word. -/
  | cmd16TooWide
deriving DecidableEq, Repr

/-- The `op` field of a request, bits 10:8 (30_encoding R70). -/
def reqOp (w : ReqWord) : OpField := w.extractLsb' 8 3

/-- The `arg` field of a request, bits 7:0 (30_encoding R70). -/
def reqArg (w : ReqWord) : Byte := w.extractLsb' 0 8

/-- The operation a request selects, from its two fields (30_encoding R73, R74). -/
def hostInstr (op : OpField) (arg : Byte) : Instr :=
  match op.toNat with
  | 0 => .reserved000 arg
  | 1 => .init arg
  | 2 => .write arg
  | 3 => .shutdown arg
  | 4 => .incres arg
  | 5 => .decres arg
  | 6 => .getres arg
  | _ => .reserved111 arg

/-- The HOSTOP decoder (30_encoding R70, R73). -/
def decodeHost (w : ReqWord) : Instr := hostInstr (reqOp w) (reqArg w)

/-- The row a command word selects, from its fields (30_encoding R79, R80, R87). -/
def cmdInstr (x1 c x0 : BitVec 2) (p1 p0 : Bit) (d : Byte) : Instr :=
  match c.toNat, p0.toNat with
  | 0, _ => .cmdNop00 x1 x0 p1 p0 d
  | 1, 0 => .cmdWriteNopot x1 x0 p1 d
  | 1, _ => .cmdWritePot0 x1 x0 p1 d
  | 2, 0 => .cmdShutdownNopot x1 x0 p1 d
  | 2, _ => .cmdShutdownPot0 x1 x0 p1 d
  | _, _ => .cmdNop11 x1 x0 p1 p0 d

/-- The CMD16 decoder, the device's reading of a word: X1 15:14, C 13:12, X0 11:10, P1 9, P0 8, D 7:0
(30_encoding R78). -/
def decodeCmd (w : CmdWord) : Instr :=
  cmdInstr (w.extractLsb' 14 2) (w.extractLsb' 12 2) (w.extractLsb' 10 2) (w.extractLsb' 9 1) (w.extractLsb' 8 1)
    (w.extractLsb' 0 8)

/-- Decoding any number as a word of a format: an instruction, or a rejection by name (30_encoding R86). -/
def decode (f : Format) (w : Nat) : Except DecodeError Instr :=
  match f with
  | .hostop => if w < 2 ^ 11 then .ok (decodeHost (BitVec.ofNat 11 w)) else .error .hostopTooWide
  | .cmd16 => if w < 2 ^ 16 then .ok (decodeCmd (BitVec.ofNat 16 w)) else .error .cmd16TooWide

/-- Which port a bare number of `opcode_table.json` is meant for. The table numbers the words of both formats from
bit 0, and the hardware tells them apart by the port alone: every HOSTOP word is also a number of the row
CMD_NOP_00. DESIGN CHOICE (log 1): a number of at most 11 bits is a request, a wider one a command word. -/
def tableFormat (nbits w : Nat) : Format :=
  if nbits ≤ 12 ∨ w < 2 ^ 11 then .hostop else .cmd16

/-- The instruction this decoder reads from a row's bits, as `opcode_table.json` numbers them (log 1). -/
def decodeTableWord (nbits w : Nat) : Option Instr :=
  (decode (tableFormat nbits w) w).toOption

/-- The request word with the given fields, `op` in bits 10:8 and `arg` in 7:0 (30_encoding R72). -/
def packHost (op : OpField) (arg : Byte) : ReqWord := (op.setWidth 11 <<< 8) ||| arg.setWidth 11

/-- The command word with the given fields (30_encoding R78). -/
def packCmd (x1 c x0 : BitVec 2) (p1 p0 : Bit) (d : Byte) : CmdWord :=
  (x1.setWidth 16 <<< 14) ||| (c.setWidth 16 <<< 12) ||| (x0.setWidth 16 <<< 10) ||| (p1.setWidth 16 <<< 9) |||
    (p0.setWidth 16 <<< 8) ||| d.setWidth 16

/-- The word of an instruction in its format, from the opcode map (30_encoding R73, R78, R79, R80). -/
def encode : Instr → Nat
  | .reserved000 arg => (packHost 0b000#3 arg).toNat
  | .init arg => (packHost 0b001#3 arg).toNat
  | .write tap => (packHost 0b010#3 tap).toNat
  | .shutdown payload => (packHost 0b011#3 payload).toNat
  | .incres delta => (packHost 0b100#3 delta).toNat
  | .decres delta => (packHost 0b101#3 delta).toNat
  | .getres arg => (packHost 0b110#3 arg).toNat
  | .reserved111 arg => (packHost 0b111#3 arg).toNat
  | .cmdNop00 x1 x0 p1 p0 d => (packCmd x1 0b00#2 x0 p1 p0 d).toNat
  | .cmdWritePot0 x1 x0 p1 d => (packCmd x1 0b01#2 x0 p1 0b1#1 d).toNat
  | .cmdWriteNopot x1 x0 p1 d => (packCmd x1 0b01#2 x0 p1 0b0#1 d).toNat
  | .cmdShutdownPot0 x1 x0 p1 d => (packCmd x1 0b10#2 x0 p1 0b1#1 d).toNat
  | .cmdShutdownNopot x1 x0 p1 d => (packCmd x1 0b10#2 x0 p1 0b0#1 d).toNat
  | .cmdNop11 x1 x0 p1 p0 d => (packCmd x1 0b11#2 x0 p1 p0 d).toNat

/-- `match` of an instruction's row (30_encoding R87). -/
def rowMatch : Instr → Nat
  | .reserved000 _ => 0x000
  | .init _ => 0x100
  | .write _ => 0x200
  | .shutdown _ => 0x300
  | .incres _ => 0x400
  | .decres _ => 0x500
  | .getres _ => 0x600
  | .reserved111 _ => 0x700
  | .cmdNop00 _ _ _ _ _ => 0x0000
  | .cmdWritePot0 _ _ _ _ => 0x1100
  | .cmdWriteNopot _ _ _ _ => 0x1000
  | .cmdShutdownPot0 _ _ _ _ => 0x2100
  | .cmdShutdownNopot _ _ _ _ => 0x2000
  | .cmdNop11 _ _ _ _ _ => 0x3000

/-- `mask` of an instruction's row (30_encoding R87). -/
def rowMask : Instr → Nat
  | .reserved000 _ => 0x700
  | .init _ => 0x700
  | .write _ => 0x700
  | .shutdown _ => 0x700
  | .incres _ => 0x700
  | .decres _ => 0x700
  | .getres _ => 0x700
  | .reserved111 _ => 0x700
  | .cmdNop00 _ _ _ _ _ => 0x3000
  | .cmdWritePot0 _ _ _ _ => 0x3100
  | .cmdWriteNopot _ _ _ _ => 0x3100
  | .cmdShutdownPot0 _ _ _ _ => 0x3100
  | .cmdShutdownNopot _ _ _ _ => 0x3100
  | .cmdNop11 _ _ _ _ _ => 0x3000

end Sys2Proof
end

