-- ==== Sys2Proof/Machine/State.lean ====
section
/-! DEFINITION. The state of the machine as plain data: the block's record S (10_state R20), the transport as the
block sees it (20_memory R54), the device (00_scope R7), the parameters (R9 to R15) and the inputs to come. -/

namespace Sys2Proof.Machine

/-- The phases of the block (10_state R24). -/
inductive Phase where
  /-- After reset, before INIT. -/
  | uninit
  /-- Initialized, no operation in flight. -/
  | idle
  | csAssert
  | waitTx
  | submit
  | waitRx
  | csDeassert
  | drain
  | commit
  /-- A fault was raised; the block has no further step. -/
  | faulted
deriving DecidableEq, Repr

/-- The transaction phases, `CS_ASSERT` through `COMMIT` (10_state R24). -/
def Phase.isTransaction : Phase → Bool
  | .uninit => false
  | .idle => false
  | .csAssert => true
  | .waitTx => true
  | .submit => true
  | .waitRx => true
  | .csDeassert => true
  | .drain => true
  | .commit => true
  | .faulted => false

/-- The two command opcodes of the encoder (40_command_encoder R100). -/
inductive Opcode where
  | write
  | shutdown
deriving DecidableEq, Repr

/-- The result of a completed host operation (10_state R28). -/
inductive Status where
  | ok
  | rejected
deriving DecidableEq, Repr

/-- The configuration the block programs into the transport (10_state R30). -/
structure XportCfg where
  wordBits : Nat
  mode : Config.XportMode
  clockHz : Nat
deriving DecidableEq, Repr

/-- The events of the history (10_state R31). -/
inductive Event where
  /-- The block accepted a host request. -/
  | req (op : OpField) (arg : Byte)
  /-- A host operation completed. -/
  | done (s : Status)
  /-- The transport enable was driven. -/
  | xen (b : Bit)
  /-- The transport was configured. -/
  | xcfg (cfg : XportCfg)
  /-- `cs_n` was driven; 0 is asserted. -/
  | cs (b : Bit)
  /-- A word was submitted to the transport. -/
  | tx (w : CmdWord)
  /-- The received word was read and dropped. -/
  | rxDrain
deriving DecidableEq, Repr

/-- The fault kinds (10_state R32, 60_exceptions R208). -/
inductive FaultKind where
  | notInit
  | doubleInit
  | busy
  | illegalOp
  | xportTimeout
  | undefRead
deriving DecidableEq, Repr

/-- A set of fault kinds, one bit for each, so that equal sets are equal data (10_state R32). -/
structure FaultSet where
  notInit : Bool
  doubleInit : Bool
  busy : Bool
  illegalOp : Bool
  xportTimeout : Bool
  undefRead : Bool
deriving DecidableEq, Repr

/-- The empty set of faults (10_state R40). -/
def FaultSet.empty : FaultSet where
  notInit := false
  doubleInit := false
  busy := false
  illegalOp := false
  xportTimeout := false
  undefRead := false

/-- The record `S` (10_state R20). `none` in a field of type Option is the spec's `⊥`, "holds no value"
(00_scope R17): reading it raises UNDEF_READ (60_exceptions R204). -/
structure Block where
  /-- WiperPosition, the shadow of the device's tap (10_state R22). -/
  wiper : Option Byte
  phase : Phase
  curOpc : Option Opcode
  curPayload : Option Byte
  curWord : Option CmdWord
  /-- The chip-select line, active low (10_state R27). -/
  csN : Option Bit
  xportEn : Option Bit
  xportCfg : Option XportCfg
  status : Option Status
  resOhms : Option Ohms
  pollCount : Nat
  faults : FaultSet
  /-- Oldest event first (10_state R31). -/
  trace : List Event
deriving DecidableEq, Repr

/-- The reset values of `S` (10_state R40). -/
def Block.reset : Block where
  wiper := none
  phase := .uninit
  curOpc := none
  curPayload := none
  curWord := none
  csN := none
  xportEn := none
  xportCfg := none
  status := none
  resOhms := none
  pollCount := 0
  faults := FaultSet.empty
  trace := []

/-- The transport as the block sees it (20_memory R54), an environment agent. -/
structure Transport where
  /-- The transmit slot is free. -/
  txFree : Bool
  /-- A received word is available. -/
  rxAvail : Bool
  /-- The received word; its content is meaningless. -/
  rxWord : CmdWord
  /-- A `TX` has been emitted and its paired word has not arrived: contract T2 delivers "once for that TX"
  (20_memory R56). -/
  rxOwed : Bool
deriving DecidableEq, Repr

/-- What the open frame has carried to the device so far. -/
inductive Frame where
  /-- No word. -/
  | empty
  /-- The word submitted in this frame. -/
  | carries (w : CmdWord)
  /-- The device was power-cycled inside the frame, or a bus error fell in it: what the device has of the word is not
  in the source. -/
  | interrupted
deriving DecidableEq, Repr

/-- The device at the far end of the bus, as far as the command words give it state (40_command_encoder R104,
R105). -/
structure Device where
  /-- `device.pot0_wiper` (40_command_encoder R104). -/
  wiper : Byte
  /-- `device.pot0` is in shutdown (40_command_encoder R105). -/
  shutdown : Bool
  frame : Frame
deriving DecidableEq, Repr

/-- One act of an agent (00_scope R6, R7), in the order `State.inputs` lists them. -/
inductive Input where
  /-- The host presents a request word with its strobe (30_encoding R70, R71). -/
  | request (req : ReqWord)
  /-- It is the block's turn to take its phase step. -/
  | block
  /-- The transport sets `tx_free` (20_memory R55). -/
  | txFree (b : Bool)
  /-- The transport delivers the word paired with the outstanding `TX`; its value is a free draw (20_memory R56). -/
  | receive (w : CmdWord)
  /-- The block's reset (70_reset_and_hazards R230). -/
  | reset
  /-- The device is power-cycled (70_reset_and_hazards R231). -/
  | powerUp
  /-- A bus error: the device does not receive the open frame correctly, and nothing reports it (60_exceptions R210,
  70_reset_and_hazards R240 item 2; log 27). -/
  | busError
  /-- A frame carrying the given word is closed at the device by something other than this block (log 15). -/
  | frame (w : CmdWord)
deriving DecidableEq, Repr

/-- The machine: plain data. -/
structure State where
  /-- The parameters of this instance; no step writes them (10_state R37). -/
  params : Params
  /-- The record `S` (10_state R20). -/
  block : Block
  transport : Transport
  device : Device
  /-- The acts to come, the next one first; when none is left, only the block moves (log 3). -/
  inputs : List Input
  /-- The model's own field: how many free values have been drawn (log 18). -/
  freeIndex : Nat
deriving DecidableEq, Repr

/-- The machine right after reset (10_state R40 for the block; log 7, 8, 9 for the rest). -/
def State.reset : State where
  params := Params.default
  block := Block.reset
  transport := ⟨false, false, 0#16, false⟩
  device := ⟨128#8, false, .empty⟩
  inputs := []
  freeIndex := 0

/-- Why the machine has no step. Each is a state in which the spec says that no agent left to move can move, so
that stopping is safe. -/
inductive Fault where
  /-- Raised by `blockStep` in `WAIT_TX` or `WAIT_RX`: the awaited condition is false and there is no timeout. The
  hang of 70_reset_and_hazards R242; `await` is a hold, not a stutter (00_scope R17). Safe. -/
  | held
  /-- Raised by `blockStep` in `UNINIT` or `IDLE`: the block waits for a request (70_reset_and_hazards R233,
  10_state R25). Safe. -/
  | noRequest
  /-- Raised by `blockStep` in `FAULTED`: the block has no step (60_exceptions R200). Safe. -/
  | halted
deriving DecidableEq, Repr

/-- Why an act has no meaning in the model. Stopping is safe in each case. -/
inductive Refusal where
  /-- Raised by `exec` for an instruction not reached yet; no arm answers so. Safe. -/
  | notModelled (mnemonic : String)
  /-- Raised by CMD_WRITE_NOPOT: the source gives a write with `P0 = 0` no effect (40_command_encoder R107). Safe. -/
  | writeNoPot
  /-- Raised by CMD_SHUTDOWN_NOPOT: the source gives a shutdown with `P0 = 0` no effect (40_command_encoder R107).
  Safe. -/
  | shutdownNoPot
  /-- Raised by `step` on a received word with no outstanding `TX`: contract T2 excludes that act of the transport
  (20_memory R56). Unsafe as a premise on the transport (log 10). -/
  | unpairedReceive
deriving DecidableEq, Repr

/-- What a step of this machine answers. -/
abbrev Result := Host.Outcome State Fault Refusal

end Sys2Proof.Machine
end

