-- ==== Sys2Proof/Machine/Flags.lean ====
section
/-! DEFINITION. The flag-like outputs: the sticky fault bits and which of them a request raises (60_exceptions). The
block has no condition codes (10_state R35). -/

namespace Sys2Proof.Machine

/-- Whether a fault kind is in the set. -/
def FaultSet.has (f : FaultSet) : FaultKind → Bool
  | .notInit => f.notInit
  | .doubleInit => f.doubleInit
  | .busy => f.busy
  | .illegalOp => f.illegalOp
  | .xportTimeout => f.xportTimeout
  | .undefRead => f.undefRead

/-- `faults ∪ {k}` (60_exceptions R200). -/
def FaultSet.insert (f : FaultSet) : FaultKind → FaultSet
  | .notInit => { f with notInit := true }
  | .doubleInit => { f with doubleInit := true }
  | .busy => { f with busy := true }
  | .illegalOp => { f with illegalOp := true }
  | .xportTimeout => { f with xportTimeout := true }
  | .undefRead => { f with undefRead := true }

/-- The numeric fault codes (60_exceptions R208). -/
def FaultKind.code : FaultKind → Nat
  | .notInit => 1
  | .doubleInit => 2
  | .busy => 3
  | .illegalOp => 4
  | .xportTimeout => 5
  | .undefRead => 6

/-- The `op` codes that spell no operation (30_encoding R74). -/
def opReserved (op : OpField) : Bool := op == 0b000#3 || op == 0b111#3

/-- The `op` code of INIT (30_encoding R73). -/
def opInit : OpField := 0b001#3

/-- The fault a request raises in a phase other than FAULTED, by the priority of 60_exceptions R206: ILLEGAL_OP,
BUSY, NOT_INIT, DOUBLE_INIT. `none`: the request is accepted. -/
def requestFault (op : OpField) (phase : Phase) : Option FaultKind :=
  if opReserved op then some .illegalOp
  else if phase.isTransaction then some .busy
  else if phase = .uninit ∧ op ≠ opInit then some .notInit
  else if phase = .idle ∧ op = opInit then some .doubleInit
  else none

end Sys2Proof.Machine
end

