-- ==== Sys2Proof/Machine/Operands.lean ====
section
/-! DEFINITION. Operands and pure functions of operands: the command encoder (40_command_encoder R100), the wiper
bounds checks (42_wiper_bounds), the resistance function (43_resistance R170), the wire order (20_memory R51) and
the host's assembly lines (30_encoding R76, R77). -/

namespace Sys2Proof.Machine

/-- `OPC`, the opcode constants of the encoder (40_command_encoder R102). -/
def opcodeConst : Opcode → CmdWord
  | .write => 0x1100#16
  | .shutdown => 0x2100#16

/-- `ENCODE(opc, payload)`, the command word constructor (40_command_encoder R100). -/
def encodeCommand (opc : Opcode) (payload : Byte) : CmdWord := opcodeConst opc ||| payload.setWidth 16

/-- The bits of a word in the order they go onto the bus: bit 15 first, bit 0 last (20_memory R51). -/
def wireBits (w : CmdWord) : List Bool := (List.range 16).map fun i => w.getLsbD (15 - i)

/-- The high byte of a word, the command byte, and then the low byte, the data byte (20_memory R51). -/
def wireBytes (w : CmdWord) : List Byte := [w.extractLsb' 8 8, w.extractLsb' 0 8]

/-- The INCRES guard: the move would fall below 0 (42_wiper_bounds R150, R153). -/
def underflows (wiper delta : Byte) : Bool := decide (delta.toNat > wiper.toNat)

/-- The DECRES guard: the exact sum exceeds `MAX_TAP` (42_wiper_bounds R155, R156). -/
def overflows (wiper delta : Byte) : Bool := decide (wiper.toNat + delta.toNat > Config.maxTap)

/-- `RES(p)` for the ladder `l` and the wiper resistance `w` (43_resistance R170). -/
def resistance (l w : Nat) (p : Byte) : Nat :=
  if p = 0#8 then l + w else ((l * p.toNat) >>> 8) + w

/-- `RES(p)` as the 32-bit value of `res_ohms` (43_resistance R173). -/
def resistanceOhms (l w : Nat) (p : Byte) : Ohms := BitVec.ofNat 32 (resistance l w p)

/-- The configuration INIT programs (10_state R30, 44_lifecycle R190). -/
def initCfg (p : Params) : XportCfg := ⟨Config.xportWordBits, p.xportMode, p.xportClockHz⟩

/-- The operation an assembly line spells; `none` is an assembly error (30_encoding R76). An operation written with
no operand encodes `arg = 0` (R75), and SHUTDOWN without one is the pseudo-operation `shutdown` (R77). -/
def assemble (l : AsmLine) : Option Instr :=
  if l.wellFormed then
    let arg : Byte := BitVec.ofNat 8 (l.operand.getD 0)
    match l.op with
    | .init => some (.init arg)
    | .write => some (.write arg)
    | .shutdown => some (.shutdown arg)
    | .incres => some (.incres arg)
    | .decres => some (.decres arg)
    | .getres => some (.getres arg)
  else none

/-- The host-level spellings (00_scope R19, 30_encoding R77): the API names of the source and their aliases. -/
inductive ApiCall where
  | initializeController
  | write (tap : Byte)
  | shutdown
  | incrementEffectiveResistance (delta : Byte)
  | decrementEffectiveResistance (delta : Byte)
  | currentResistanceOhms
  | incrementPosition (delta : Byte)
  | decrementPosition (delta : Byte)
  | calculateResistance
deriving DecidableEq, Repr

/-- The operation each API name stands for (00_scope R19, 30_encoding R77). The naming is inverted and kept:
`incrementPosition` is INCRES, which lowers the tap (42_wiper_bounds R158). -/
def apiInstr : ApiCall → Instr
  | .initializeController => .init 0#8
  | .write tap => .write tap
  | .shutdown => .shutdown 0#8
  | .incrementEffectiveResistance delta => .incres delta
  | .decrementEffectiveResistance delta => .decres delta
  | .currentResistanceOhms => .getres 0#8
  | .incrementPosition delta => .incres delta
  | .decrementPosition delta => .decres delta
  | .calculateResistance => .getres 0#8

end Sys2Proof.Machine
end

