-- ==== Sys2Proof/Machine/Ops.lean ====
section
/-! DEFINITION. The operations the rules share (00_scope R17): emitting an event, completing an operation, raising a
fault and leaving one, accepting a request, starting a transaction, driving chip-select; and what the model does
with the device where the spec does not say. -/

namespace Sys2Proof.Machine

/-- `emit(e)`: appends to the history (00_scope R17, 10_state R31). -/
def emit (e : Event) (s : State) : State :=
  { s with block := { s.block with trace := s.block.trace ++ [e] } }

/-- `raise Fault(k)`: sets the sticky bit and enters FAULTED; no other field changes (60_exceptions R200). -/
def raiseFault (k : FaultKind) (s : State) : State :=
  { s with block := { s.block with faults := s.block.faults.insert k, phase := .faulted } }

/-- `done(s)`: ends the current host operation with a status (00_scope R17, 10_state R28). -/
def done (st : Status) (s : State) : State :=
  emit (.done st) { s with block := { s.block with status := some st, phase := .idle } }

/-- Reading a field that may hold `⊥`: raises UNDEF_READ there, precisely, before the rule writes anything
(60_exceptions R200, R204). -/
def withValue {α : Type} (field : Option α) (s : State) (k : α → State) : State :=
  match field with
  | none => raiseFault .undefRead s
  | some v => k v

/-- The arrival of a request with operation code `op` (30_encoding R71, 60_exceptions R206). A faulted block does not
take it and nothing changes (R206 item 1, R214; log 5); otherwise the highest-priority fault is raised, or the
request is accepted and the operation's own rule runs. -/
def onRequest (op : OpField) (s : State) (accepted : State → State) : Result :=
  if s.block.phase = .faulted then .next s
  else
    match requestFault op s.block.phase with
    | some k => .next (raiseFault k s)
    | none => .next (accepted s)

/-- `TXN_START(opc, payload)` (41_transaction_sequencer R120). -/
def txnStart (opc : Opcode) (payload : Byte) (s : State) : State :=
  { s with
    block :=
      { s.block with
        curOpc := some opc
        curPayload := some payload
        curWord := some (encodeCommand opc payload)
        phase := .csAssert } }

/-- `cs_n <- b; emit(CS(b))` (10_state R27, R31). -/
def driveCs (b : Bit) (s : State) : State :=
  emit (.cs b) { s with block := { s.block with csN := some b } }

/-- The device where the spec does not say what it does: its wiper and whether it is in shutdown are free values
(91_not_in_source N10; 93_implementation_defined "interrupted frame"; log 13). -/
def freeDevice (s : State) : State :=
  { s with
    device := ⟨Config.freeTap s.freeIndex, Config.freeShutdown s.freeIndex, .empty⟩
    freeIndex := s.freeIndex + 1 }

/-- The device at a chip-select edge that closes its frame early (70_reset_and_hazards R240 item 3): with a word
under way its effect is free; with none submitted the device is as before (log 13). -/
def abortFrame (s : State) : State :=
  match s.device.frame with
  | .empty => s
  | .carries _ => freeDevice s
  | .interrupted => freeDevice s

/-- A frame is open: chip-select is asserted, in a transaction or still after a fault (10_state R27, 60_exceptions
R202). In CS_ASSERT, DRAIN and COMMIT it is not, and there is no partial word. -/
def frameOpen (b : Block) : Bool := b.csN == some 0#1

/-- Reset (70_reset_and_hazards R230): every field of `S` takes its reset value, in any phase; the only way out of
FAULTED (60_exceptions R214). The transport is not reset, and the device keeps its state (R231), unless a frame was
open: then what it does with the partial word is free (R232; log 13). -/
def resetBlock (s : State) : State :=
  if frameOpen s.block then freeDevice { s with block := Block.reset }
  else { s with block := Block.reset }

end Sys2Proof.Machine
end

