-- ==== Sys2Proof/Machine/Bounds.lean ====
section
/-! DEFINITION. The wiper bounds logic, INCRES and DECRES (42_wiper_bounds): a move out of [0, 255] is rejected, not
saturated (90_conflicts C1). -/

namespace Sys2Proof.Machine

/-- INCRES once accepted: the bound check comes before any bus activity (42_wiper_bounds R152). -/
def incresAccepted (delta : Byte) (s : State) : State :=
  withValue s.block.wiper s fun p =>
    let s := emit (.req 0b100#3 delta) s
    if underflows p delta then done .rejected s else txnStart .write (p - delta) s

/-- `INCRES delta` (42_wiper_bounds R150): moves the tap down, or rejects with the corrected guard (R153). -/
def execIncres (delta : Byte) (s : State) : Result :=
  onRequest 0b100#3 s (incresAccepted delta)

/-- DECRES once accepted: the bound check comes before any bus activity (42_wiper_bounds R152). -/
def decresAccepted (delta : Byte) (s : State) : State :=
  withValue s.block.wiper s fun p =>
    let s := emit (.req 0b101#3 delta) s
    if overflows p delta then done .rejected s else txnStart .write (p + delta) s

/-- `DECRES delta` (42_wiper_bounds R155): moves the tap up, or rejects on the exact sum (R156). -/
def execDecres (delta : Byte) (s : State) : Result :=
  onRequest 0b101#3 s (decresAccepted delta)

end Sys2Proof.Machine
end

