-- ==== Sys2Proof/Machine/Device.lean ====
section
/-! DEFINITION. The six command words as the device reads them (40_command_encoder R104 to R107), at the `CS(1)` that
closes the frame carrying them (decision D21). None of them writes a field of the block. -/

namespace Sys2Proof.Machine

/-- `CMD_NOP_00`: nothing changes in the device (40_command_encoder R106). Decision D26 of 92_eei_decisions lists the
no-op effect on device state as unknown; the model follows the rule (log 26). -/
def execCmdNop00 (_x1 _x0 : BitVec 2) (_p1 _p0 : Bit) (_d : Byte) (s : State) : Result := .next s

/-- `CMD_WRITE_POT0`: the device's wiper takes the data byte (40_command_encoder R104). Whether a device in shutdown
leaves it is not in the source (91_not_in_source N7), so that is a free value (log 12). -/
def execCmdWritePot0 (_x1 _x0 : BitVec 2) (_p1 : Bit) (d : Byte) (s : State) : Result :=
  .next
    { s with
      device := { s.device with wiper := d, shutdown := s.device.shutdown && Config.freeShutdown s.freeIndex }
      freeIndex := s.freeIndex + 1 }

/-- `CMD_WRITE_NOPOT`: a write with `P0 = 0` has no effect in the source (40_command_encoder R107, 30_encoding R80);
refused by name (93_implementation_defined, "P0 = 0 command words"; log 14). -/
def execCmdWriteNopot (_x1 _x0 : BitVec 2) (_p1 : Bit) (_d : Byte) (_s : State) : Result := .refused .writeNoPot

/-- `CMD_SHUTDOWN_POT0`: pot 0 enters shutdown, whatever the data byte (40_command_encoder R105). Whether the device
keeps its wiper value through shutdown is not in the source (91_not_in_source N7), so that is a free value
(log 12). -/
def execCmdShutdownPot0 (_x1 _x0 : BitVec 2) (_p1 : Bit) (_d : Byte) (s : State) : Result :=
  .next
    { s with
      device := { s.device with wiper := Config.freeTap s.freeIndex, shutdown := true }
      freeIndex := s.freeIndex + 1 }

/-- `CMD_SHUTDOWN_NOPOT`: a shutdown with `P0 = 0` has no effect in the source (40_command_encoder R107, 30_encoding
R80); refused by name (93_implementation_defined, "P0 = 0 command words"; log 14). -/
def execCmdShutdownNopot (_x1 _x0 : BitVec 2) (_p1 : Bit) (_d : Byte) (_s : State) : Result :=
  .refused .shutdownNoPot

/-- `CMD_NOP_11`: nothing changes in the device (40_command_encoder R106). Decision D26 of 92_eei_decisions lists the
no-op effect on device state as unknown; the model follows the rule (log 26). -/
def execCmdNop11 (_x1 _x0 : BitVec 2) (_p1 _p0 : Bit) (_d : Byte) (s : State) : Result := .next s

/-- The device's power-up (70_reset_and_hazards R231): tap 128. Whether the device is then in shutdown is not in the
source (91_not_in_source N7), so that is a free value; inside an open frame the device has missed part of the word
(log 17). -/
def devicePowerUp (s : State) : State :=
  { s with
    device :=
      { wiper := 128#8
        shutdown := Config.freeShutdown s.freeIndex
        frame := if s.block.csN = some 0#1 then .interrupted else .empty }
    freeIndex := s.freeIndex + 1 }

/-- A bus error inside the open frame (60_exceptions R210, 70_reset_and_hazards R240 item 2): what reaches the device of
the frame's word is unknown, so that the closing edge leaves the device free (log 27). Nothing of the block or the
transport shows it. With chip-select not asserted there is no frame to spoil. -/
def busError (s : State) : State :=
  { s with
    device := { s.device with frame := if s.block.csN = some 0#1 then .interrupted else s.device.frame } }

end Sys2Proof.Machine
end

