-- ==== Sys2Proof/Machine/Lifecycle.lean ====
section
/-! DEFINITION. INIT (44_lifecycle) and the two reserved request codes (30_encoding R74, 60_exceptions R203). -/

namespace Sys2Proof.Machine

/-- The transport after INIT has disabled, configured and enabled it: no received word is available, and none of an
earlier exchange is still to come (20_memory R67, assumed by the spec: decision D20; log 10). -/
def restartTransport (s : State) : State :=
  { s with transport := { s.transport with rxAvail := false, rxOwed := false } }

/-- The fields INIT writes between its events, in the source's order (44_lifecycle R190). -/
def initFields (arg : Byte) (s : State) : State :=
  let s := emit (.req opInit arg) s
  let s := emit (.xen 0#1) { s with block := { s.block with xportEn := some 0#1 } }
  let s := driveCs 1#1 s
  let s := { s with block := { s.block with xportCfg := some (initCfg s.params) } }
  let s := emit (.xcfg (initCfg s.params)) s
  let s := emit (.xen 1#1) { s with block := { s.block with xportEn := some 1#1 } }
  let s := restartTransport s
  done .ok { s with block := { s.block with wiper := some s.params.initTap } }

/-- `INIT`: initialize the controller, one atomic step, accepted in UNINIT only (44_lifecycle R190, R191). -/
def execInit (arg : Byte) (s : State) : Result :=
  onRequest opInit s (initFields arg)

/-- A request with `op = 000` raises ILLEGAL_OP in any phase except FAULTED (60_exceptions R203). `requestFault`
never accepts it. -/
def execReserved000 (_arg : Byte) (s : State) : Result :=
  onRequest 0b000#3 s fun s => s

/-- A request with `op = 111` raises ILLEGAL_OP in any phase except FAULTED (60_exceptions R203). `requestFault`
never accepts it. -/
def execReserved111 (_arg : Byte) (s : State) : Result :=
  onRequest 0b111#3 s fun s => s

end Sys2Proof.Machine
end

