-- ==== Sys2Proof/Machine/Resistance.lean ====
section
/-! DEFINITION. GETRES (43_resistance R176). -/

namespace Sys2Proof.Machine

/-- GETRES once accepted: it writes the result output and completes (43_resistance R176). -/
def getresAccepted (arg : Byte) (s : State) : State :=
  withValue s.block.wiper s fun p =>
    let s := emit (.req 0b110#3 arg) s
    let ohms := resistanceOhms s.params.ladderOhms s.params.wiperOhms p
    done .ok { s with block := { s.block with resOhms := some ohms } }

/-- `GETRES`: read out the resistance for the current wiper position (43_resistance R176). -/
def execGetres (arg : Byte) (s : State) : Result :=
  onRequest 0b110#3 s (getresAccepted arg)

/-- `wiper_q`, the read-only observation output, valid when the wiper holds a value (10_state R34). -/
def wiperQ (s : State) : Option Byte := s.block.wiper

end Sys2Proof.Machine
end

