-- ==== Sys2Proof/Machine/Transaction.lean ====
section
/-! DEFINITION. The host operations that are one transaction, WRITE and SHUTDOWN, and the block's side of the
transaction phases (41_transaction_sequencer; the bounded wait of 60_exceptions R205). -/

namespace Sys2Proof.Machine

/-- WRITE once accepted (41_transaction_sequencer R130). -/
def writeAccepted (tap : Byte) (s : State) : State := txnStart .write tap (emit (.req 0b010#3 tap) s)

/-- `WRITE tap` (41_transaction_sequencer R130): the accepting step. -/
def execWrite (tap : Byte) (s : State) : Result :=
  onRequest 0b010#3 s (writeAccepted tap)

/-- SHUTDOWN once accepted (41_transaction_sequencer R132). -/
def shutdownAccepted (payload : Byte) (s : State) : State := txnStart .shutdown payload (emit (.req 0b011#3 payload) s)

/-- `SHUTDOWN payload` (41_transaction_sequencer R132): the accepting step. -/
def execShutdown (payload : Byte) (s : State) : Result :=
  onRequest 0b011#3 s (shutdownAccepted payload)

/-- Phase CS_ASSERT (41_transaction_sequencer R121). At the device a new frame begins. -/
def csAssert (s : State) : State :=
  let s := driveCs 0#1 s
  { s with
    block := { s.block with pollCount := 0, phase := .waitTx }
    device := { s.device with frame := .empty } }

/-- FAILED_POLL with `XPORT_TIMEOUT = some n` (60_exceptions R205): one more failed poll, or, at the `n`-th, the
frame is released and XPORT_TIMEOUT is raised. `n = 0` behaves as `n = 1`. -/
def failedPoll (n : Nat) (s : State) : State :=
  if s.block.pollCount + 1 < n then
    { s with block := { s.block with pollCount := s.block.pollCount + 1 } }
  else raiseFault .xportTimeout (abortFrame (driveCs 1#1 s))

/-- A wait phase (41_transaction_sequencer R122, R124): with the condition true the block goes on to `next`; with it
false it is held, or, with a timeout, takes a failed poll (60_exceptions R205). -/
def awaitPhase (ready : Bool) (next : Phase) (s : State) : Result :=
  if ready then .next { s with block := { s.block with phase := next } }
  else
    match s.params.xportTimeout with
    | none => .fault .held
    | some n => .next (failedPoll n s)

/-- What the frame has carried once a word is submitted in it. A device power-cycled inside the frame has missed its
start. -/
def Frame.carry (w : CmdWord) : Frame → Frame
  | .empty => .carries w
  | .carries _ => .carries w
  | .interrupted => .interrupted

/-- Phase SUBMIT (41_transaction_sequencer R123). The transport now owes the paired word (20_memory R56). -/
def submit (s : State) : State :=
  withValue s.block.curWord s fun w =>
    let s := emit (.tx w) s
    { s with
      block := { s.block with pollCount := 0, phase := .waitRx }
      transport := { s.transport with rxOwed := true }
      device := { s.device with frame := s.device.frame.carry w } }

/-- Phase CS_DEASSERT, the block's side (41_transaction_sequencer R125). -/
def csDeassert (s : State) : State :=
  let s := driveCs 1#1 s
  { s with block := { s.block with phase := .drain } }

/-- Phase DRAIN (41_transaction_sequencer R126): the received word is read and dropped, and the transport's
`rx_avail` becomes false in the same step (20_memory R57). -/
def drain (s : State) : State :=
  let s := emit .rxDrain s
  { s with
    block := { s.block with phase := .commit }
    transport := { s.transport with rxAvail := false } }

/-- Phase COMMIT (41_transaction_sequencer R128): the wiper takes the payload of a WRITE-opcode transaction. -/
def commit (s : State) : State :=
  withValue s.block.curOpc s fun opc =>
    match opc with
    | .write => withValue s.block.curPayload s fun p =>
        done .ok { s with block := { s.block with wiper := some p } }
    | .shutdown => done .ok s

end Sys2Proof.Machine
end

