-- ==== Sys2Proof/Machine/Dispatch.lean ====
section
/-! DEFINITION. One arm per row of `opcode_table.json`. -/

namespace Sys2Proof.Machine

def exec (i : Instr) (s : State) : Host.Outcome State Fault Refusal :=
  match i with
  -- HOSTOP requests, at the block
  | .reserved000 arg => Sys2Proof.Machine.execReserved000 arg s
  | .init arg => Sys2Proof.Machine.execInit arg s
  | .write tap => Sys2Proof.Machine.execWrite tap s
  | .shutdown payload => Sys2Proof.Machine.execShutdown payload s
  | .incres delta => Sys2Proof.Machine.execIncres delta s
  | .decres delta => Sys2Proof.Machine.execDecres delta s
  | .getres arg => Sys2Proof.Machine.execGetres arg s
  | .reserved111 arg => Sys2Proof.Machine.execReserved111 arg s
  -- CMD16 words, at the device
  | .cmdNop00 x1 x0 p1 p0 d => Sys2Proof.Machine.execCmdNop00 x1 x0 p1 p0 d s
  | .cmdWritePot0 x1 x0 p1 d => Sys2Proof.Machine.execCmdWritePot0 x1 x0 p1 d s
  | .cmdWriteNopot x1 x0 p1 d => Sys2Proof.Machine.execCmdWriteNopot x1 x0 p1 d s
  | .cmdShutdownPot0 x1 x0 p1 d => Sys2Proof.Machine.execCmdShutdownPot0 x1 x0 p1 d s
  | .cmdShutdownNopot x1 x0 p1 d => Sys2Proof.Machine.execCmdShutdownNopot x1 x0 p1 d s
  | .cmdNop11 x1 x0 p1 p0 d => Sys2Proof.Machine.execCmdNop11 x1 x0 p1 p0 d s

end Sys2Proof.Machine
end

