-- ==== Sys2Proof/Machine/Agents.lean ====
section
/-! DEFINITION. What each agent's act does (00_scope R6, R7): the host's request, the block's phase step with the
device's reading at the closing edge, the transport's answers, reset and power-up. -/

namespace Sys2Proof.Machine

/-- The request port: the presented word selects an operation (30_encoding R70, R71, R73). -/
def takeRequest (req : ReqWord) (s : State) : Result := exec (decodeHost req) s

/-- The device reads a command word (40_command_encoder R104 to R107). -/
def deviceReads (w : CmdWord) (s : State) : Result := exec (decodeCmd w) s

/-- The device at the `CS(1)` that ends a complete frame: it acts on the word the frame carried (41_transaction_sequencer
R125, decision D21; log 11). After a power cycle of the device or a bus error inside the frame the word it has is
unknown (log 17, log 27). -/
def closeFrame (s : State) : Result :=
  match s.device.frame with
  | .empty => .next s
  | .carries w => deviceReads w { s with device := { s.device with frame := .empty } }
  | .interrupted => .next (freeDevice s)

/-- The block's step in its present phase (10_state R24, 41_transaction_sequencer R121 to R128); no step in UNINIT,
IDLE and FAULTED, and none in a wait phase that nothing lifts. -/
def blockStep (s : State) : Result :=
  match s.block.phase with
  | .uninit => .fault .noRequest
  | .idle => .fault .noRequest
  | .csAssert => .next (csAssert s)
  | .waitTx => awaitPhase s.transport.txFree .submit s
  | .submit => .next (submit s)
  | .waitRx => awaitPhase s.transport.rxAvail .csDeassert s
  | .csDeassert => closeFrame (csDeassert s)
  | .drain => .next (drain s)
  | .commit => .next (commit s)
  | .faulted => .fault .halted

/-- The transport delivers the word paired with the outstanding `TX`, once (20_memory R56). -/
def receiveWord (w : CmdWord) (s : State) : Result :=
  if s.transport.rxOwed then
    .next { s with transport := { s.transport with rxAvail := true, rxWord := w, rxOwed := false } }
  else .refused .unpairedReceive

/-- One act of an agent. -/
def takeInput (e : Input) (s : State) : Result :=
  match e with
  | .request req => takeRequest req s
  | .block => blockStep s
  | .txFree b => .next { s with transport := { s.transport with txFree := b } }
  | .receive w => receiveWord w s
  | .reset => .next (resetBlock s)
  | .powerUp => .next (devicePowerUp s)
  | .busError => .next (busError s)
  | .frame w => deviceReads w s

/-- The next act: the first of `inputs`, or the block's own step when none is left (log 3). -/
def nextAct (s : State) : Result :=
  match s.inputs with
  | [] => blockStep s
  | e :: rest => takeInput e { s with inputs := rest }

/-- The act that brings a bare number of `opcode_table.json` to the machine: a request at the request port, or a
frame at the device (log 1, log 15). -/
def wordInput (nbits w : Nat) : Input :=
  match tableFormat nbits w with
  | .hostop => .request (BitVec.ofNat 11 w)
  | .cmd16 => .frame (BitVec.ofNat 16 w)

end Sys2Proof.Machine
end

