-- ==== Sys2Proof/Machine/Step.lean ====
section
/-! DEFINITION. One step of the machine (00_scope R6), and placing an instruction as the next act. -/

namespace Sys2Proof.Machine

/-- One step: the next agent's act. -/
def step (s : State) : Host.Outcome State Fault Refusal := nextAct s

/-- `s` with the given instruction as its very next act (log 2). -/
def State.withFetchWord (s : State) (nbits w : Nat) : State :=
  { s with inputs := wordInput nbits w :: s.inputs }

end Sys2Proof.Machine
end

