-- ==== Sys2Proof/Safety.lean ====
section
/-! DEFINITION. What counts as a safe run, in the terms the statements use: the invariant of the machine, the
reading of a history by the order rules (20_memory R61, 41_transaction_sequencer R134), and the acts of a transport
that answers (20_memory R58). -/

namespace Sys2Proof.Safety

open Sys2Proof.Machine

/-- The level of `cs_n` in each phase but FAULTED (10_state R27, 41_transaction_sequencer R121, R125). -/
def csLevel : Phase → Option Bit
  | .uninit => none
  | .idle => some 1#1
  | .csAssert => some 1#1
  | .waitTx => some 0#1
  | .submit => some 0#1
  | .waitRx => some 0#1
  | .csDeassert => some 0#1
  | .drain => some 1#1
  | .commit => some 1#1
  | .faulted => none

/-- The fixed order of the phases of a transaction (41_transaction_sequencer R127); after COMMIT the block is IDLE. -/
def nextPhase : Phase → Phase
  | .csAssert => .waitTx
  | .waitTx => .submit
  | .submit => .waitRx
  | .waitRx => .csDeassert
  | .csDeassert => .drain
  | .drain => .commit
  | .commit => .idle
  | .uninit => .uninit
  | .idle => .idle
  | .faulted => .faulted

/-- The block has been initialized and has not faulted: IDLE or a transaction phase (10_state R24). -/
def Running (ph : Phase) : Prop := ph = .idle ∨ ph.isTransaction = true

/-- The transport's receive side in each phase: a received word is available, or still owed, exactly from the
frame's `TX` to its drain (20_memory R56, R57, R67). -/
def ReceiveOk (ph : Phase) (t : Transport) : Prop :=
  match ph with
  | .uninit => True
  | .faulted => True
  | .waitRx => t.rxAvail = !t.rxOwed
  | .csDeassert => t.rxAvail = true ∧ t.rxOwed = false
  | .drain => t.rxAvail = true ∧ t.rxOwed = false
  | .idle => t.rxAvail = false ∧ t.rxOwed = false
  | .csAssert => t.rxAvail = false ∧ t.rxOwed = false
  | .waitTx => t.rxAvail = false ∧ t.rxOwed = false
  | .submit => t.rxAvail = false ∧ t.rxOwed = false
  | .commit => t.rxAvail = false ∧ t.rxOwed = false

/-- What the open frame has carried to the device in each phase: the transaction's word from SUBMIT to CS_DEASSERT,
unless a power cycle of the device or a bus error fell in the frame. -/
def FrameOk (b : Block) (f : Frame) : Prop :=
  match b.phase with
  | .waitTx => f = .empty ∨ f = .interrupted
  | .submit => f = .empty ∨ f = .interrupted
  | .waitRx => (∃ w, b.curWord = some w ∧ f = .carries w) ∨ f = .interrupted
  | .csDeassert => (∃ w, b.curWord = some w ∧ f = .carries w) ∨ f = .interrupted
  | .faulted => b.csN = some 0#1 ∨ f = .empty
  | .uninit => f = .empty
  | .idle => f = .empty
  | .csAssert => f = .empty
  | .drain => f = .empty
  | .commit => f = .empty

/-- The invariant of the machine. -/
structure Inv (s : State) : Prop where
  /-- The parameters satisfy 00_scope R15. -/
  params : s.params.wf
  /-- Before INIT every field of `S` has its reset value (10_state R40). -/
  fresh : s.block.phase = .uninit → s.block = Block.reset
  /-- After INIT the wiper holds a value (10_state R23) and the transport is enabled and configured (20_memory R66). -/
  ready : Running s.block.phase → (∃ p, s.block.wiper = some p) ∧ s.block.xportEn = some 1#1 ∧
    s.block.xportCfg = some (initCfg s.params)
  /-- The transaction latch holds an encoded command (10_state R26). -/
  latch : s.block.phase.isTransaction = true → ∃ opc p, s.block.curOpc = some opc ∧ s.block.curPayload = some p ∧
    s.block.curWord = some (encodeCommand opc p)
  /-- Chip-select is asserted exactly inside a frame (10_state R27). -/
  chipSelect : s.block.phase ≠ .faulted → s.block.csN = csLevel s.block.phase
  /-- FAULTED is entered exactly with a fault (60_exceptions R200). -/
  faulted : s.block.phase = .faulted ↔ s.block.faults ≠ FaultSet.empty
  /-- No run raises UNDEF_READ (60_exceptions R204). -/
  defined : s.block.faults.undefRead = false
  /-- Without a timeout the poll counter is never used (10_state R33). -/
  polls : s.params.xportTimeout = none → s.block.pollCount = 0
  /-- With a timeout of `n` polls the counter stays below it in a wait phase (60_exceptions R205). -/
  pollBound : ∀ n, s.params.xportTimeout = some n → s.block.phase = .waitTx ∨ s.block.phase = .waitRx →
    s.block.pollCount < max n 1
  receive : ReceiveOk s.block.phase s.transport
  frame : FrameOk s.block s.device.frame

/-- Where a history stands: what the events so far say, with the shadow position `p` they imply. -/
inductive Stand where
  | fresh
  | initAsked
  | initDisabled
  | initDeselected
  | initConfigured
  | initEnabled
  /-- The last operation is done; the shadow is `p`. -/
  | ready (p : Byte)
  /-- A request has been accepted, with the shadow at `p`. -/
  | asked (p : Byte) (op : OpField) (arg : Byte)
  /-- Its frame is open. -/
  | framed (p : Byte) (op : OpField) (arg : Byte)
  /-- Its word has been submitted; at completion the shadow will be `q`. -/
  | sent (p q : Byte)
  /-- The frame is closed. -/
  | closed (p q : Byte)
  /-- The received word is drained. -/
  | drained (p q : Byte)
  /-- The frame was closed before a word was submitted (60_exceptions R205). -/
  | aborted
deriving DecidableEq, Repr

/-- The tap the wiper shall have after an operation, and the command word that carries it there, from the rules of
the operations in natural numbers (41 R130, R132; 42 R150, R155). `none`: the operation sends no word, or is
rejected. -/
def expected (p : Byte) (op : OpField) (arg : Byte) : Option (Byte × CmdWord) :=
  match op.toNat with
  | 2 => some (arg, BitVec.ofNat 16 (0x1100 + arg.toNat))
  | 3 => some (p, BitVec.ofNat 16 (0x2100 + arg.toNat))
  | 4 =>
    if arg.toNat ≤ p.toNat then
      some (BitVec.ofNat 8 (p.toNat - arg.toNat), BitVec.ofNat 16 (0x1100 + (p.toNat - arg.toNat)))
    else none
  | 5 =>
    if p.toNat + arg.toNat ≤ 255 then
      some (BitVec.ofNat 8 (p.toNat + arg.toNat), BitVec.ofNat 16 (0x1100 + (p.toNat + arg.toNat)))
    else none
  | _ => none

/-- One event read after the events so far; `none` where the order rules of 20_memory R61 do not allow it. -/
def Stand.read (prm : Params) (h : Stand) (e : Event) : Option Stand :=
  match h, e with
  | .fresh, .req op _ => if op = 1#3 then some .initAsked else none
  | .initAsked, .xen b => if b = 0#1 then some .initDisabled else none
  | .initDisabled, .cs b => if b = 1#1 then some .initDeselected else none
  | .initDeselected, .xcfg c =>
    if c = ⟨16, prm.xportMode, prm.xportClockHz⟩ then some .initConfigured else none
  | .initConfigured, .xen b => if b = 1#1 then some .initEnabled else none
  | .initEnabled, .done .ok => some (.ready prm.initTap)
  | .ready p, .req op arg => if 2 ≤ op.toNat ∧ op.toNat ≤ 6 then some (.asked p op arg) else none
  | .asked p op arg, .cs b => if b = 0#1 ∧ (expected p op arg).isSome then some (.framed p op arg) else none
  | .asked p op _, .done .ok => if op = 6#3 then some (.ready p) else none
  | .asked p op arg, .done .rejected =>
    if (op = 4#3 ∨ op = 5#3) ∧ expected p op arg = none then some (.ready p) else none
  | .framed p op arg, .tx w =>
    match expected p op arg with
    | some (q, v) => if w = v then some (.sent p q) else none
    | none => none
  | .framed _ _ _, .cs b => if b = 1#1 then some .aborted else none
  | .sent p q, .cs b => if b = 1#1 then some (.closed p q) else none
  | .closed p q, .rxDrain => some (.drained p q)
  | .drained _ q, .done .ok => some (.ready q)
  | _, _ => none

/-- A whole history read from the start: `none` where it breaks the order rules. -/
def readHistory (prm : Params) (tr : List Event) : Option Stand :=
  tr.foldl (fun h e => h.bind fun h => h.read prm e) (some .fresh)

/-- The state of the block agrees with where its history stands (20_memory R61): the phase, the shadow (the value
from before the request until COMMIT, 41_transaction_sequencer R136) and the latch. -/
def Agrees (b : Block) (h : Stand) : Prop :=
  match b.phase with
  | .uninit => h = .fresh
  | .idle => ∃ p, h = .ready p ∧ b.wiper = some p
  | .csAssert => ∃ p op arg q w, h = .asked p op arg ∧ b.wiper = some p ∧ expected p op arg = some (q, w) ∧
      b.curWord = some w ∧ (b.curOpc = some .shutdown ∧ q = p ∨ b.curOpc = some .write ∧ b.curPayload = some q)
  | .waitTx => ∃ p op arg q w, h = .framed p op arg ∧ b.wiper = some p ∧ expected p op arg = some (q, w) ∧
      b.curWord = some w ∧ (b.curOpc = some .shutdown ∧ q = p ∨ b.curOpc = some .write ∧ b.curPayload = some q)
  | .submit => ∃ p op arg q w, h = .framed p op arg ∧ b.wiper = some p ∧ expected p op arg = some (q, w) ∧
      b.curWord = some w ∧ (b.curOpc = some .shutdown ∧ q = p ∨ b.curOpc = some .write ∧ b.curPayload = some q)
  | .waitRx => ∃ p q, h = .sent p q ∧ b.wiper = some p ∧
      (b.curOpc = some .shutdown ∧ q = p ∨ b.curOpc = some .write ∧ b.curPayload = some q)
  | .csDeassert => ∃ p q, h = .sent p q ∧ b.wiper = some p ∧
      (b.curOpc = some .shutdown ∧ q = p ∨ b.curOpc = some .write ∧ b.curPayload = some q)
  | .drain => ∃ p q, h = .closed p q ∧ b.wiper = some p ∧
      (b.curOpc = some .shutdown ∧ q = p ∨ b.curOpc = some .write ∧ b.curPayload = some q)
  | .commit => ∃ p q, h = .drained p q ∧ b.wiper = some p ∧
      (b.curOpc = some .shutdown ∧ q = p ∨ b.curOpc = some .write ∧ b.curPayload = some q)
  | .faulted => True

/-- The history breaks no order rule, and the block agrees with it. -/
def HistoryOk (s : State) : Prop := ∃ h, readHistory s.params s.block.trace = some h ∧ Agrees s.block h

/-- `k` steps of the machine, stopping at the first fault or refusal. -/
def runSteps : Nat → State → Result
  | 0, s => .next s
  | k + 1, s =>
    match step s with
    | .next s' => runSteps k s'
    | .fault r => .fault r
    | .refused r => .refused r

/-- The acts of the block and of the transport alone, bus errors among them: no request, no reset, no other agent at the
device. -/
def isQuiet : Input → Bool
  | .block => true
  | .txFree _ => true
  | .receive _ => true
  | .request _ => false
  | .reset => false
  | .powerUp => false
  | .busError => true
  | .frame _ => false

/-- The fairness premise `XPORT_LIVE` (20_memory R58) on the run from `s`: whenever the block is in `WAIT_TX`, `tx_free`
is eventually true; whenever it is in `WAIT_RX`, `rx_avail` is eventually true. It is a premise of statements and no part
of `step`, which admits the hang (log 28). -/
def XportLive (s : State) : Prop :=
  ∀ k t, runSteps k s = .next t →
    (t.block.phase = .waitTx → ∃ j u, runSteps j t = .next u ∧ u.transport.txFree = true) ∧
    (t.block.phase = .waitRx → ∃ j u, runSteps j t = .next u ∧ u.transport.rxAvail = true)

/-- The transport keeps contract T2 on the run from `s`: no act of the run is refused (20_memory R56; log 10). -/
def TransportKeepsT2 (s : State) : Prop := ∀ k r, runSteps k s ≠ .refused r

/-- One request, and a transport that answers each wait: the eight block steps of 70_reset_and_hazards R244 with the
two answers of the transport between them. `rx` is the received word. -/
def answeredRequest (req : ReqWord) (rx : CmdWord) : List Input :=
  [.request req, .block, .txFree true, .block, .block, .receive rx, .block, .block, .block, .block]

/-- The same with a bus error between the `TX` and the answer: the device does not receive the word correctly
(60_exceptions R210). -/
def answeredWithBusError (req : ReqWord) (rx : CmdWord) : List Input :=
  [.request req, .block, .txFree true, .block, .block, .busError, .receive rx, .block, .block, .block, .block]

/-- The events of one complete frame and its completion, after the `REQ` (41_transaction_sequencer R134). -/
def frameEvents (w : CmdWord) : List Event := [.cs 0#1, .tx w, .cs 1#1, .rxDrain, .done .ok]

/-- A record of a fault and nothing else: the bit set and the phase FAULTED (60_exceptions R200). -/
def faultedWith (s : State) (f : FaultSet) : State :=
  { s with block := { s.block with faults := f, phase := .faulted } }

/-- The state with another received word on the transport, everything else the same. -/
def withRxWord (v : CmdWord) (s : State) : State := { s with transport := { s.transport with rxWord := v } }

/-- An event without the operand of a request. -/
def forgetArg : Event → Event
  | .req op _ => .req op 0#8
  | e => e

/-- The block at the end of a completed transaction that was accepted in `b` (41_transaction_sequencer R134): the
word `w` went out in one frame, and the shadow is `tap`. -/
def completed (b : Block) (op : OpField) (arg : Byte) (opc : Opcode) (payload : Byte) (w : CmdWord) (tap : Option Byte) :
    Block :=
  { b with
    wiper := tap
    phase := .idle
    curOpc := some opc
    curPayload := some payload
    curWord := some w
    csN := some 1#1
    status := some .ok
    pollCount := 0
    trace := b.trace ++ [.req op arg, .cs 0#1, .tx w, .cs 1#1, .rxDrain, .done .ok] }

end Sys2Proof.Safety
end

