-- ==== Sys2Proof/Certificates/Slice0/Obligations.lean ====
section
/-! DEFINITION. The statements for the provers, from the numbered rules of the spec. -/

open Sys2Proof Sys2Proof.Machine Sys2Proof.Safety

/-! ### Encodings -/

/-- Decode and encode agree on every instruction with every operand (30_encoding R73, R78, R87). -/
def Obligations.DecodeOfEncodeIsTheInstruction : Prop :=
  ∀ i : Instr, i.wellFormed = true → decode i.format (encode i) = .ok i

/-- No two words of a format decode to one instruction: encoding a decoded word gives the word back (30_encoding R86,
R87). -/
def Obligations.EncodeOfDecodeIsTheWord : Prop :=
  ∀ (f : Format) (w : Nat) (i : Instr), decode f w = .ok i → i.format = f ∧ encode i = w

/-- R87: a word selects a row when `w & mask = match`; rows are disjoint within a format and cover every word. -/
def Obligations.OpcodeMapRowsAreDisjointAndComplete : Prop :=
  (∀ (f : Format) (w : Nat) (i : Instr), decode f w = .ok i →
    ∀ j : Instr, j.format = f → (w &&& rowMask j = rowMatch j ↔ rowMatch j = rowMatch i)) ∧
  (∀ w < 2 ^ 11, ∃ i, decode .hostop w = .ok i) ∧ (∀ w < 2 ^ 16, ∃ i, decode .cmd16 w = .ok i)

/-- The decode vectors of 95_test_vectors 2.2 and 2.3 that lie at the edges of the formats. -/
def Obligations.DecodeVectorsOfTheSpec : Prop :=
  decode .hostop 0x000 = .ok (.reserved000 0#8) ∧ decode .hostop 0x1FF = .ok (.init 0xFF#8) ∧
  decode .hostop 0x2C0 = .ok (.write 192#8) ∧ decode .hostop 0x300 = .ok (.shutdown 0#8) ∧
  decode .hostop 0x40A = .ok (.incres 10#8) ∧ decode .hostop 0x514 = .ok (.decres 20#8) ∧
  decode .hostop 0x6AB = .ok (.getres 0xAB#8) ∧ decode .hostop 0x7FF = .ok (.reserved111 0xFF#8) ∧
  decode .cmd16 0x11C0 = .ok (.cmdWritePot0 0#2 0#2 0#1 0xC0#8) ∧
  decode .cmd16 0x2100 = .ok (.cmdShutdownPot0 0#2 0#2 0#1 0#8) ∧
  decode .cmd16 0x3FFF = .ok (.cmdNop11 0#2 3#2 1#1 1#1 0xFF#8) ∧
  decode .cmd16 0xD1C0 = .ok (.cmdWritePot0 3#2 0#2 0#1 0xC0#8) ∧
  decode .cmd16 0x10C0 = .ok (.cmdWriteNopot 0#2 0#2 0#1 0xC0#8)

/-- R103, the five laws of ENCODE. -/
def Obligations.CommandEncoderLaws : Prop :=
  (∀ opc p, (encodeCommand opc p).extractLsb' 0 8 = p) ∧
  (∀ p, (encodeCommand .write p).extractLsb' 8 8 = 0x11#8) ∧
  (∀ p, (encodeCommand .shutdown p).extractLsb' 8 8 = 0x21#8) ∧
  (∀ p, (encodeCommand .write p).extractLsb' 12 2 = 0b01#2) ∧
  (∀ p, (encodeCommand .shutdown p).extractLsb' 12 2 = 0b10#2) ∧
  (∀ opc p, (encodeCommand opc p).extractLsb' 8 1 = 1#1 ∧ (encodeCommand opc p).extractLsb' 14 2 = 0#2 ∧
    (encodeCommand opc p).extractLsb' 10 2 = 0#2 ∧ (encodeCommand opc p).extractLsb' 9 1 = 0#1) ∧
  (∀ opc opc' p p', encodeCommand opc p = encodeCommand opc' p' → opc = opc' ∧ p = p') ∧
  (∀ opc p, encodeCommand opc p = (opcodeConst opc).extractLsb' 8 8 ++ p)

/-- A word goes onto the bus bit 15 first, and the command byte before the data byte (20_memory R51). -/
def Obligations.WireOrderIsMostSignificantFirst : Prop :=
  ∀ w : CmdWord, (wireBits w).length = 16 ∧ (∀ i < 16, (wireBits w)[i]? = some (w.getLsbD (15 - i))) ∧
    wireBits w = (wireBytes w).flatMap (fun b => (List.range 8).map fun i => b.getLsbD (7 - i))

/-- The assembly lines of 30_encoding R76 and R77: operands in 0 to 255, none for INIT and GETRES, and `shutdown`
alone means SHUTDOWN 0. -/
def Obligations.AssemblyLinesSpellOperations : Prop :=
  (∀ (op : AsmOp) (n : Nat), 255 < n → assemble ⟨op, some n⟩ = none) ∧
  (∀ n ≤ 255, assemble ⟨.init, some n⟩ = none ∧ assemble ⟨.getres, some n⟩ = none ∧
    assemble ⟨.write, some n⟩ = some (.write (BitVec.ofNat 8 n)) ∧
    assemble ⟨.shutdown, some n⟩ = some (.shutdown (BitVec.ofNat 8 n)) ∧
    assemble ⟨.incres, some n⟩ = some (.incres (BitVec.ofNat 8 n)) ∧
    assemble ⟨.decres, some n⟩ = some (.decres (BitVec.ofNat 8 n))) ∧
  assemble ⟨.init, none⟩ = some (.init 0#8) ∧ assemble ⟨.getres, none⟩ = some (.getres 0#8) ∧
  assemble ⟨.shutdown, none⟩ = some (.shutdown 0#8) ∧ assemble ⟨.write, none⟩ = none ∧
  assemble ⟨.incres, none⟩ = none ∧ assemble ⟨.decres, none⟩ = none

/-! ### The step and the ports -/

/-- A step runs the decoded instruction: a presented request and a frame at the device run their instruction on the
state with that act taken off the list, and `withFetchWord` places one as the next act (30_encoding R71; log 2). -/
def Obligations.StepRunsTheDecodedInstruction : Prop :=
  (∀ (s : State) (r : ReqWord) (i : Instr) (rest : List Input), s.inputs = .request r :: rest →
    decode .hostop r.toNat = .ok i → step s = exec i { s with inputs := rest }) ∧
  (∀ (s : State) (w : CmdWord) (i : Instr) (rest : List Input), s.inputs = .frame w :: rest →
    decode .cmd16 w.toNat = .ok i → step s = exec i { s with inputs := rest }) ∧
  (∀ (s : State) (nbits w : Nat) (i : Instr), decodeTableWord nbits w = some i →
    step (s.withFetchWord nbits w) = exec i s)

/-! ### Requests and their faults -/

/-- R203: a reserved operation code raises ILLEGAL_OP in any phase except FAULTED, and records the fault bit only. -/
def Obligations.ReservedCodesRaiseIllegalOp : Prop :=
  ∀ (s : State) (arg : Byte), s.block.phase ≠ .faulted →
    exec (.reserved000 arg) s = .next (faultedWith s { s.block.faults with illegalOp := true }) ∧
    exec (.reserved111 arg) s = .next (faultedWith s { s.block.faults with illegalOp := true })

/-- R201: an operation other than INIT before INIT raises NOT_INIT, and records the fault bit only. -/
def Obligations.OperationsBeforeInitRaiseNotInit : Prop :=
  ∀ (s : State) (arg : Byte), s.block.phase = .uninit →
    ∀ i ∈ [Instr.write arg, .shutdown arg, .incres arg, .decres arg, .getres arg],
      exec i s = .next (faultedWith s { s.block.faults with notInit := true })

/-- R207: INIT in IDLE raises DOUBLE_INIT, and records the fault bit only. -/
def Obligations.SecondInitRaisesDoubleInit : Prop :=
  ∀ (s : State) (arg : Byte), s.block.phase = .idle →
    exec (.init arg) s = .next (faultedWith s { s.block.faults with doubleInit := true })

/-- R202: a request of any defined operation in a transaction phase raises BUSY; the transaction stops where it
stood, chip-select included. -/
def Obligations.RequestsInATransactionRaiseBusy : Prop :=
  ∀ (s : State) (arg : Byte), s.block.phase.isTransaction = true →
    ∀ i ∈ [Instr.init arg, .write arg, .shutdown arg, .incres arg, .decres arg, .getres arg],
      exec i s = .next (faultedWith s { s.block.faults with busy := true })

/-- R206, the priority of the conditions on a request, and acceptance where none holds. -/
def Obligations.RequestFaultPriority : Prop :=
  ∀ (s : State) (r : ReqWord), (s.block.phase = .idle → s.block.wiper ≠ none) →
    let op := r.toNat / 256
    if s.block.phase = .faulted then exec (decodeHost r) s = .next s
    else if op = 0 ∨ op = 7 then
      exec (decodeHost r) s = .next (faultedWith s { s.block.faults with illegalOp := true })
    else if s.block.phase.isTransaction = true then
      exec (decodeHost r) s = .next (faultedWith s { s.block.faults with busy := true })
    else if s.block.phase = .uninit ∧ op ≠ 1 then
      exec (decodeHost r) s = .next (faultedWith s { s.block.faults with notInit := true })
    else if s.block.phase = .idle ∧ op = 1 then
      exec (decodeHost r) s = .next (faultedWith s { s.block.faults with doubleInit := true })
    else
      ∃ s' evs, exec (decodeHost r) s = .next s' ∧ s'.block.phase ≠ .faulted ∧ s'.block.faults = s.block.faults ∧
        s'.block.trace = s.block.trace ++ .req (BitVec.ofNat 3 op) (BitVec.ofNat 8 (r.toNat % 256)) :: evs

/-- R214: reset is the only exit from FAULTED; no other act changes a field of a faulted block. -/
def Obligations.OnlyResetLeavesFaulted : Prop :=
  ∀ s s' : State, s.block.phase = .faulted → step s = .next s' →
    (∀ rest, s.inputs ≠ .reset :: rest) → s'.block = s.block

/-- R32: no step clears a fault bit; only reset empties the set. -/
def Obligations.FaultBitsAreSticky : Prop :=
  ∀ s s' : State, step s = .next s' →
    ((∀ rest, s.inputs ≠ .reset :: rest) → ∀ k, s.block.faults.has k = true → s'.block.faults.has k = true) ∧
    (∀ rest, s.inputs = .reset :: rest → ∀ k, s'.block.faults.has k = false)

/-- R40 and R230: the reset values, all at once, in any phase. -/
def Obligations.ResetSetsEveryFieldOfTheBlock : Prop :=
  let values : Block :=
    { wiper := none, phase := .uninit, curOpc := none, curPayload := none, curWord := none, csN := none,
      xportEn := none, xportCfg := none, status := none, resOhms := none, pollCount := 0,
      faults := ⟨false, false, false, false, false, false⟩, trace := [] }
  State.reset.block = values ∧
  ∀ (s : State) (rest : List Input), s.inputs = .reset :: rest →
    ∃ s', step s = .next s' ∧ s'.block = values

/-- Reset resets neither the transport nor, when no frame is open, the device (70_reset_and_hazards R231): in CS_ASSERT,
DRAIN and COMMIT too. The case of an open frame, chip-select asserted, is a free value (log 13). -/
def Obligations.ResetKeepsTransportAndIdleDevice : Prop :=
  ∀ (s : State) (rest : List Input), s.inputs = .reset :: rest →
    ∃ s', step s = .next s' ∧ s'.transport = s.transport ∧ s'.params = s.params ∧ s'.inputs = rest ∧
      (s.block.csN ≠ some 0#1 → s'.device = s.device ∧ s'.freeIndex = s.freeIndex)

/-! ### INIT -/

/-- INIT from UNINIT: its events in the source's order, and every field it writes (44_lifecycle R190; the transport's
receive side is empty afterwards, 20_memory R67). The device is not touched (R192). -/
def Obligations.InitInitializesTheBlock : Prop :=
  ∀ (s : State) (arg : Byte), s.block.phase = .uninit →
    let cfg : XportCfg := ⟨16, s.params.xportMode, s.params.xportClockHz⟩
    exec (.init arg) s = .next
      { s with
        block :=
          { s.block with
            wiper := some s.params.initTap
            phase := .idle
            csN := some 1#1
            xportEn := some 1#1
            xportCfg := some cfg
            status := some .ok
            trace := s.block.trace ++
              [.req 1#3 arg, .xen 0#1, .cs 1#1, .xcfg cfg, .xen 1#1, .done .ok] }
        transport := { s.transport with rxAvail := false, rxOwed := false } }

/-- R75: INIT and GETRES ignore their operand; two operands give next states that differ at most in the operand the
`REQ` event records. -/
def Obligations.InitAndGetresIgnoreTheirOperand : Prop :=
  ∀ (s sa : State) (a b : Byte) (f : Byte → Instr), f = Instr.init ∨ f = Instr.getres → exec (f a) s = .next sa →
    ∃ sb, exec (f b) s = .next sb ∧
      sb = { sa with block := { sa.block with trace := sb.block.trace } } ∧
      sb.block.trace.map forgetArg = sa.block.trace.map forgetArg ∧
      (sa.block.trace ≠ s.block.trace → ∃ op evs, sa.block.trace = s.block.trace ++ .req op a :: evs)

/-! ### WRITE, SHUTDOWN, INCRES, DECRES, GETRES: the accepting step -/

/-- WRITE accepted in IDLE: the request is recorded and the transaction latched, and nothing else changes
(41_transaction_sequencer R120, R130). -/
def Obligations.WriteStartsItsTransaction : Prop :=
  ∀ (s : State) (tap : Byte), s.block.phase = .idle →
    exec (.write tap) s = .next
      { s with
        block :=
          { s.block with
            curOpc := some .write
            curPayload := some tap
            curWord := some (0x11#8 ++ tap)
            phase := .csAssert
            trace := s.block.trace ++ [.req 2#3 tap] } }

/-- SHUTDOWN accepted in IDLE (41_transaction_sequencer R120, R132). -/
def Obligations.ShutdownStartsItsTransaction : Prop :=
  ∀ (s : State) (payload : Byte), s.block.phase = .idle →
    exec (.shutdown payload) s = .next
      { s with
        block :=
          { s.block with
            curOpc := some .shutdown
            curPayload := some payload
            curWord := some (0x21#8 ++ payload)
            phase := .csAssert
            trace := s.block.trace ++ [.req 3#3 payload] } }

/-- INCRES accepted in IDLE: it rejects exactly when `delta > wiper` as natural numbers, and otherwise starts a write
of the exact difference (42_wiper_bounds R150, R152, R153). -/
def Obligations.IncresLowersTheTapOrRejects : Prop :=
  ∀ (s : State) (p delta : Byte), s.block.phase = .idle → s.block.wiper = some p →
    exec (.incres delta) s = .next
      (if delta.toNat > p.toNat then
        { s with
          block :=
            { s.block with
              status := some .rejected
              trace := s.block.trace ++ [.req 4#3 delta, .done .rejected] } }
      else
        { s with
          block :=
            { s.block with
              curOpc := some .write
              curPayload := some (BitVec.ofNat 8 (p.toNat - delta.toNat))
              curWord := some (BitVec.ofNat 16 (0x1100 + (p.toNat - delta.toNat)))
              phase := .csAssert
              trace := s.block.trace ++ [.req 4#3 delta] } })

/-- DECRES accepted in IDLE: it rejects exactly when the exact sum exceeds 255, and otherwise starts a write of it
(42_wiper_bounds R152, R155, R156). -/
def Obligations.DecresRaisesTheTapOrRejects : Prop :=
  ∀ (s : State) (p delta : Byte), s.block.phase = .idle → s.block.wiper = some p →
    exec (.decres delta) s = .next
      (if p.toNat + delta.toNat > 255 then
        { s with
          block :=
            { s.block with
              status := some .rejected
              trace := s.block.trace ++ [.req 5#3 delta, .done .rejected] } }
      else
        { s with
          block :=
            { s.block with
              curOpc := some .write
              curPayload := some (BitVec.ofNat 8 (p.toNat + delta.toNat))
              curWord := some (BitVec.ofNat 16 (0x1100 + (p.toNat + delta.toNat)))
              phase := .csAssert
              trace := s.block.trace ++ [.req 5#3 delta] } })

/-- GETRES accepted in IDLE: the result output holds the exact value of `RES(wiper)` in 32 bits, under the parameter
constraint, and only the result, the status and the history change (43_resistance R170 to R176). -/
def Obligations.GetresReadsTheResistance : Prop :=
  ∀ (s : State) (arg p : Byte), s.block.phase = .idle → s.block.wiper = some p → s.params.wf →
    ∃ ohms : Ohms,
      ohms.toNat =
        (if p.toNat = 0 then s.params.ladderOhms + s.params.wiperOhms
        else s.params.ladderOhms * p.toNat / 256 + s.params.wiperOhms) ∧
      exec (.getres arg) s = .next
        { s with
          block :=
            { s.block with
              resOhms := some ohms
              status := some .ok
              trace := s.block.trace ++ [.req 6#3 arg, .done .ok] } }

/-! ### The resistance function -/

/-- R177: monotone on taps 1 to 255, strictly for `L >= 256`; and the value at tap 0 is above all of them. -/
def Obligations.ResistanceIsMonotoneFromTapOne : Prop :=
  ∀ l w : Nat,
    (∀ p q : Byte, 1 ≤ p.toNat → p.toNat < q.toNat → resistance l w p ≤ resistance l w q) ∧
    (256 ≤ l → ∀ p q : Byte, 1 ≤ p.toNat → p.toNat < q.toNat → resistance l w p < resistance l w q) ∧
    (1 ≤ l → ∀ p : Byte, 1 ≤ p.toNat → resistance l w p < resistance l w 0#8)

/-- Under the constraint of 00_scope R15 the 32-bit computation of 43_resistance R172, product, shift and sum each
wrapping at 32 bits, gives the exact value at every tap. -/
def Obligations.ResistanceFitsThirtyTwoBits : Prop :=
  ∀ (prm : Params) (p : Byte), prm.wf →
    let l : Ohms := BitVec.ofNat 32 prm.ladderOhms
    let w : Ohms := BitVec.ofNat 32 prm.wiperOhms
    (if p = 0#8 then l + w else ((l * p.setWidth 32) >>> 8) + w) = resistanceOhms prm.ladderOhms prm.wiperOhms p ∧
      (resistanceOhms prm.ladderOhms prm.wiperOhms p).toNat = resistance prm.ladderOhms prm.wiperOhms p

/-- The ends of the range (43_resistance R171, R179), and at `L = 10000` the vectors V-RES-2, V-RES-8 and V-RES-9. -/
def Obligations.ResistanceAtTheEnds : Prop :=
  ∀ l w : Nat, resistance l w 0#8 = l + w ∧ resistance l w 255#8 = l * 255 / 256 + w ∧
    resistance 10000 w 1#8 = 39 + w ∧ resistance 10000 w 192#8 = 7500 + w ∧ resistance 10000 w 255#8 = 9960 + w

/-! ### The transaction phases -/

/-- R121, phase CS_ASSERT; at the device a new frame begins. -/
def Obligations.CsAssertOpensTheFrame : Prop :=
  ∀ s : State, s.block.phase = .csAssert →
    blockStep s = .next
      { s with
        block :=
          { s.block with csN := some 0#1, pollCount := 0, phase := .waitTx, trace := s.block.trace ++ [.cs 0#1] }
        device := { s.device with frame := .empty } }

/-- R122 and R124: a wait phase goes on when the transport answers, whatever the timeout; with no timeout it has no
step otherwise (R242). -/
def Obligations.WaitPhasesAwaitTheTransport : Prop :=
  ∀ s : State,
    (s.block.phase = .waitTx → s.transport.txFree = true →
      blockStep s = .next { s with block := { s.block with phase := .submit } }) ∧
    (s.block.phase = .waitRx → s.transport.rxAvail = true →
      blockStep s = .next { s with block := { s.block with phase := .csDeassert } }) ∧
    (s.params.xportTimeout = none → s.block.phase = .waitTx → s.transport.txFree = false →
      blockStep s = .fault .held) ∧
    (s.params.xportTimeout = none → s.block.phase = .waitRx → s.transport.rxAvail = false →
      blockStep s = .fault .held)

/-- R123, phase SUBMIT: the latched word is the one word submitted; the transport owes its paired word (20_memory
R56), and the frame carries the word to the device. -/
def Obligations.SubmitSendsTheLatchedWord : Prop :=
  ∀ (s : State) (w : CmdWord), s.block.phase = .submit → s.block.curWord = some w → s.device.frame = .empty →
    blockStep s = .next
      { s with
        block := { s.block with pollCount := 0, phase := .waitRx, trace := s.block.trace ++ [.tx w] }
        transport := { s.transport with rxOwed := true }
        device := { s.device with frame := .carries w } }

/-- Phase CS_DEASSERT (41_transaction_sequencer R125), with the device acting on the frame's word at the closing edge
(40_command_encoder R104, R105; log 11, 12): a write sets the device's wiper to the payload, a shutdown puts it into
shutdown. What the spec does not say of the device is a free value. -/
def Obligations.CsDeassertClosesTheFrameAtTheDevice : Prop :=
  ∀ (s : State) (opc : Opcode) (payload : Byte), s.block.phase = .csDeassert →
    s.device.frame = .carries (encodeCommand opc payload) →
    ∃ s', blockStep s = .next s' ∧
      s'.block = { s.block with csN := some 1#1, phase := .drain, trace := s.block.trace ++ [.cs 1#1] } ∧
      s'.transport = s.transport ∧ s'.params = s.params ∧ s'.inputs = s.inputs ∧ s'.device.frame = .empty ∧
      (opc = .write → s'.device.wiper = payload ∧ (s.device.shutdown = false → s'.device.shutdown = false)) ∧
      (opc = .shutdown → s'.device.shutdown = true)

/-- R126 and R57, phase DRAIN: the received word is read and dropped, and the transport's buffer is empty. -/
def Obligations.DrainDropsTheReceivedWord : Prop :=
  ∀ s : State, s.block.phase = .drain →
    blockStep s = .next
      { s with
        block := { s.block with phase := .commit, trace := s.block.trace ++ [.rxDrain] }
        transport := { s.transport with rxAvail := false } }

/-- R128, phase COMMIT: the wiper takes the payload of a WRITE-opcode transaction only, and the operation is done. -/
def Obligations.CommitWritesTheWiperForWriteOnly : Prop :=
  ∀ (s : State) (opc : Opcode) (payload : Byte), s.block.phase = .commit → s.block.curOpc = some opc →
    s.block.curPayload = some payload →
    blockStep s = .next
      { s with
        block :=
          { s.block with
            wiper := if opc = .write then some payload else s.block.wiper
            status := some .ok
            phase := .idle
            trace := s.block.trace ++ [.done .ok] } }

/-- R127: the phases run in the fixed order; a block step goes to the next phase, stays in a wait phase (a failed
poll), or faults. -/
def Obligations.PhasesRunInTheFixedOrder : Prop :=
  ∀ s s' : State, s.block.phase.isTransaction = true → blockStep s = .next s' →
    s'.block.phase = nextPhase s.block.phase ∨ s'.block.phase = .faulted ∨
      (s'.block.phase = s.block.phase ∧ (s.block.phase = .waitTx ∨ s.block.phase = .waitRx) ∧
        ∃ n, s.params.xportTimeout = some n)

/-- R205, one failed poll: it is counted, or the frame is released and XPORT_TIMEOUT raised, with the wiper
unchanged; `n = 0` behaves as `n = 1`. The device after the early close is left open here (log 13). -/
def Obligations.FailedPollCountsOrTimesOut : Prop :=
  ∀ (s : State) (n : Nat), s.params.xportTimeout = some n →
    (s.block.phase = .waitTx ∧ s.transport.txFree = false ∨ s.block.phase = .waitRx ∧ s.transport.rxAvail = false) →
    (s.block.pollCount + 1 < n →
      blockStep s = .next { s with block := { s.block with pollCount := s.block.pollCount + 1 } }) ∧
    (n ≤ s.block.pollCount + 1 →
      ∃ s', blockStep s = .next s' ∧
        s'.block =
          { s.block with
            csN := some 1#1
            trace := s.block.trace ++ [.cs 1#1]
            faults := { s.block.faults with xportTimeout := true }
            phase := .faulted } ∧
        s'.transport = s.transport ∧ s'.params = s.params ∧ s'.inputs = s.inputs)

/-- The bounded wait: with `XPORT_TIMEOUT = some n`, a transport that does not answer makes the block fault at the
`n`-th poll, not before, with `cs_n` released and the wiper as it was (60_exceptions R205). -/
def Obligations.UnansweredWaitTimesOutAfterNPolls : Prop :=
  ∀ (s : State) (n : Nat) (rest : List Input), s.params.xportTimeout = some n →
    (s.block.phase = .waitTx ∧ s.transport.txFree = false ∨ s.block.phase = .waitRx ∧ s.transport.rxAvail = false) →
    s.block.pollCount = 0 → s.inputs = List.replicate (max n 1) .block ++ rest →
    (∀ k < max n 1, ∃ s', runSteps k s = .next s' ∧
      s'.block = { s.block with pollCount := k }) ∧
    (∃ s', runSteps (max n 1) s = .next s' ∧
      s'.block =
        { s.block with
          csN := some 1#1
          trace := s.block.trace ++ [.cs 1#1]
          faults := { s.block.faults with xportTimeout := true }
          phase := .faulted
          pollCount := max n 1 - 1 })

/-- The transport delivers the word paired with a `TX` once: it is accepted exactly while owed (20_memory R56). That
any other delivery has no meaning is the contract taken as a premise (log 10). -/
def Obligations.ReceivedWordIsPairedWithATx : Prop :=
  ∀ (s : State) (w : CmdWord) (rest : List Input), s.inputs = .receive w :: rest →
    step s =
      if s.transport.rxOwed = true then
        .next { s with transport := ⟨s.transport.txFree, true, w, false⟩, inputs := rest }
      else .refused .unpairedReceive

/-! ### Whole transactions -/

/-- WRITE, with a transport that answers: eight block steps, the one frame of R134, the shadow at the tap, and, when no
bus error falls in the frame, the device too (41_transaction_sequencer R130, R131, R134; 70_reset_and_hazards R240, R244).
With a bus error in the frame the block does the same and completes with status OK (60_exceptions R210), and nothing is
said of the device (log 27). -/
def Obligations.AnsweredWriteSetsTheTap : Prop :=
  ∀ (s : State) (tap : Byte) (rx : CmdWord) (rest : List Input), s.block.phase = .idle →
    (s.inputs = answeredRequest (0x200#11 ||| tap.setWidth 11) rx ++ rest →
      ∃ s', runSteps 10 s = .next s' ∧
        s'.block = completed s.block 2#3 tap .write tap (0x1100#16 ||| tap.setWidth 16) (some tap) ∧
        s'.transport = ⟨true, false, rx, false⟩ ∧ s'.device.wiper = tap ∧ s'.device.frame = .empty ∧
        (s.device.shutdown = false → s'.device.shutdown = false) ∧ s'.params = s.params ∧ s'.inputs = rest) ∧
    (s.inputs = answeredWithBusError (0x200#11 ||| tap.setWidth 11) rx ++ rest →
      ∃ s', runSteps 11 s = .next s' ∧
        s'.block = completed s.block 2#3 tap .write tap (0x1100#16 ||| tap.setWidth 16) (some tap) ∧
        s'.transport = ⟨true, false, rx, false⟩ ∧ s'.device.frame = .empty ∧ s'.params = s.params ∧ s'.inputs = rest)

/-- SHUTDOWN, with a transport that answers and no bus error: the shadow keeps its value whatever the payload, and the device is in
shutdown (41_transaction_sequencer R132, R133). -/
def Obligations.AnsweredShutdownKeepsTheTap : Prop :=
  ∀ (s : State) (payload : Byte) (rx : CmdWord) (rest : List Input), s.block.phase = .idle →
    s.inputs = answeredRequest (0x300#11 ||| payload.setWidth 11) rx ++ rest →
    ∃ s', runSteps 10 s = .next s' ∧
      s'.block =
        completed s.block 3#3 payload .shutdown payload (0x2100#16 ||| payload.setWidth 16) s.block.wiper ∧
      s'.transport = ⟨true, false, rx, false⟩ ∧ s'.device.shutdown = true ∧ s'.device.frame = .empty ∧
      s'.params = s.params ∧ s'.inputs = rest

/-- The laws of the bounds logic, 42_wiper_bounds R159, with a transport that answers and no bus error: accepted moves
end at the exact tap after one frame, rejected ones take one step and have no bus event. -/
def Obligations.BoundsLawsOfTheMoves : Prop :=
  ∀ (s : State) (p d : Byte) (rx : CmdWord) (rest : List Input), s.block.phase = .idle → s.block.wiper = some p →
    (d.toNat ≤ p.toNat → s.inputs = answeredRequest (0x400#11 ||| d.setWidth 11) rx ++ rest →
      ∃ s' q, runSteps 10 s = .next s' ∧ q.toNat = p.toNat - d.toNat ∧ s'.device.wiper = q ∧
        s'.block = completed s.block 4#3 d .write q (BitVec.ofNat 16 (0x1100 + q.toNat)) (some q)) ∧
    (p.toNat < d.toNat → s.inputs = .request (0x400#11 ||| d.setWidth 11) :: rest →
      ∃ s', runSteps 1 s = .next s' ∧ s'.device = s.device ∧ s'.transport = s.transport ∧
        s'.block =
          { s.block with
            status := some .rejected, trace := s.block.trace ++ [.req 4#3 d, .done .rejected] }) ∧
    (p.toNat + d.toNat ≤ 255 → s.inputs = answeredRequest (0x500#11 ||| d.setWidth 11) rx ++ rest →
      ∃ s' q, runSteps 10 s = .next s' ∧ q.toNat = p.toNat + d.toNat ∧ s'.device.wiper = q ∧
        s'.block = completed s.block 5#3 d .write q (BitVec.ofNat 16 (0x1100 + q.toNat)) (some q)) ∧
    (255 < p.toNat + d.toNat → s.inputs = .request (0x500#11 ||| d.setWidth 11) :: rest →
      ∃ s', runSteps 1 s = .next s' ∧ s'.device = s.device ∧ s'.transport = s.transport ∧
        s'.block =
          { s.block with
            status := some .rejected, trace := s.block.trace ++ [.req 5#3 d, .done .rejected] })

/-- R154: a zero delta passes its check and issues a full WRITE transaction of the current tap. -/
def Obligations.ZeroDeltaStillWrites : Prop :=
  ∀ (s : State) (p : Byte) (rx : CmdWord) (rest : List Input) (op : OpField), op = 4#3 ∨ op = 5#3 →
    s.block.phase = .idle → s.block.wiper = some p →
    s.inputs = answeredRequest (packHost op 0#8) rx ++ rest →
    ∃ s', runSteps 10 s = .next s' ∧
      s'.block = completed s.block op 0#8 .write p (0x1100#16 ||| p.setWidth 16) (some p)

/-- Whatever the interleaving of the block with a transport that answers or stalls as it likes, bus errors included
(60_exceptions R210), a transaction under way is in one of three situations: still in its frame order with the shadow unchanged; complete, with exactly the
events of R134 and the shadow written only for a WRITE opcode; or stopped by the timeout (20_memory R60, R61;
41_transaction_sequencer R127, R134, R136). -/
def Obligations.TransactionUnderEverySchedule : Prop :=
  ∀ (s s' : State) (opc : Opcode) (payload : Byte) (k : Nat), Inv s → s.block.phase = .csAssert →
    s.block.curOpc = some opc → s.block.curPayload = some payload → s.inputs.all isQuiet = true →
    runSteps k s = .next s' →
    (s'.block.phase.isTransaction = true ∧ s'.block.wiper = s.block.wiper ∧ s'.block.status = s.block.status ∧
      ∃ evs, s'.block.trace = s.block.trace ++ evs ∧ evs.length < 5 ∧
        evs <+: frameEvents (encodeCommand opc payload)) ∨
    (s'.block.phase = .idle ∧ s'.block.status = some .ok ∧
      s'.block.wiper = (if opc = .write then some payload else s.block.wiper) ∧
      s'.block.trace = s.block.trace ++ frameEvents (encodeCommand opc payload)) ∨
    (s'.block.phase = .faulted ∧ s'.block.wiper = s.block.wiper ∧ s'.block.status = s.block.status ∧
      (∃ n, s.params.xportTimeout = some n) ∧
      s'.block.faults = { s.block.faults with xportTimeout := true })

/-- A transaction never gets stuck except by the hang of R242: in every transaction phase the block has a step, or it
awaits a transport that has not answered, with no timeout (41_transaction_sequencer R122, R124, R127). Under `XPORT_LIVE`
(20_memory R58; log 28), with no timeout and a transport that keeps contract T2, it completes with status OK, whatever
the schedule and whatever bus errors fall in it (60_exceptions R210). -/
def Obligations.TransactionHangsOnlyInAWait : Prop :=
  ∀ s : State, Inv s → s.block.phase.isTransaction = true →
    ((∃ s', blockStep s = .next s') ∨
      (blockStep s = .fault .held ∧ s.params.xportTimeout = none ∧
        (s.block.phase = .waitTx ∧ s.transport.txFree = false ∨
          s.block.phase = .waitRx ∧ s.transport.rxAvail = false))) ∧
    (s.params.xportTimeout = none → s.inputs.all isQuiet = true → XportLive s → TransportKeepsT2 s →
      ∃ k s', runSteps k s = .next s' ∧ s'.block.phase = .idle ∧ s'.block.status = some .ok)

/-! ### Invariants of every step -/

/-- Every step keeps the invariant of the machine (10_state R23, R26, R27; 20_memory R66, R67; 60_exceptions R200,
R204). -/
def Obligations.EveryStepKeepsTheInvariant : Prop :=
  ∀ s s' : State, Inv s → step s = .next s' → Inv s'

/-- The invariant holds at reset. -/
def Obligations.ResetMeetsTheInvariant : Prop := Inv State.reset

/-- Every step extends the history by the order rules and keeps the block in agreement with it: the history determines
the shadow, and each operation's word is the one its rule gives (20_memory R61, 41_transaction_sequencer R134, R136;
42_wiper_bounds R150, R155). -/
def Obligations.EveryStepKeepsTheHistoryInOrder : Prop :=
  ∀ s s' : State, Inv s → HistoryOk s → step s = .next s' → HistoryOk s'

/-- The history is in order at reset. -/
def Obligations.ResetHistoryIsInOrder : Prop := HistoryOk State.reset

/-- R22: INIT and the COMMIT of a WRITE-opcode transaction are the only steps that write the wiper; reset takes its
value away. -/
def Obligations.WiperIsWrittenByInitAndCommitOnly : Prop :=
  ∀ s s' : State, step s = .next s' →
    s'.block.wiper = s.block.wiper ∨
    (∃ rest, s.inputs = .reset :: rest ∧ s'.block.wiper = none) ∨
    (∃ arg rest, s.inputs = .request (packHost 1#3 arg) :: rest ∧ s.block.phase = .uninit ∧
      s'.block.wiper = some s.params.initTap) ∨
    (s.block.phase = .commit ∧ s.block.curOpc = some .write ∧ s'.block.wiper = s.block.curPayload)

/-- R31: the history is only ever appended to, except that reset starts it anew. -/
def Obligations.HistoryOnlyGrows : Prop :=
  ∀ s s' : State, step s = .next s' → (∀ rest, s.inputs ≠ .reset :: rest) →
    ∃ evs, s'.block.trace = s.block.trace ++ evs

/-- R30: only INIT writes the transport enable and configuration. -/
def Obligations.TransportConfigIsWrittenByInitOnly : Prop :=
  ∀ s s' : State, step s = .next s' →
    (s'.block.xportEn = s.block.xportEn ∧ s'.block.xportCfg = s.block.xportCfg) ∨
    (∃ rest, s.inputs = .reset :: rest ∧ s'.block.xportEn = none ∧ s'.block.xportCfg = none) ∨
    (∃ arg rest, s.inputs = .request (packHost 1#3 arg) :: rest ∧ s.block.phase = .uninit ∧
      s'.block.xportEn = some 1#1 ∧
      s'.block.xportCfg = some ⟨16, s.params.xportMode, s.params.xportClockHz⟩)

/-- R29: only GETRES writes the result output, and it holds its value until the next GETRES or reset. -/
def Obligations.ResultIsWrittenByGetresOnly : Prop :=
  ∀ s s' : State, step s = .next s' →
    s'.block.resOhms = s.block.resOhms ∨
    (∃ rest, s.inputs = .reset :: rest ∧ s'.block.resOhms = none) ∨
    (∃ arg rest p, s.inputs = .request (packHost 6#3 arg) :: rest ∧ s.block.phase = .idle ∧
      s.block.wiper = some p ∧
      s'.block.resOhms = some (resistanceOhms s.params.ladderOhms s.params.wiperOhms p))

/-- REJECTED is written only by an INCRES or DECRES whose bound check fails (10_state R28). -/
def Obligations.RejectedComesFromAFailedBoundCheck : Prop :=
  ∀ s s' : State, step s = .next s' → s'.block.status = some .rejected →
    s.block.status = some .rejected ∨
    (∃ arg rest p, s.block.phase = .idle ∧ s.block.wiper = some p ∧
      (s.inputs = .request (packHost 4#3 arg) :: rest ∧ p.toNat < arg.toNat ∨
        s.inputs = .request (packHost 5#3 arg) :: rest ∧ 255 < p.toNat + arg.toNat))

/-- Every word the block ever submits is one of the 512 of 30_encoding R84. -/
def Obligations.SubmittedWordsAreCommands : Prop :=
  ∀ s s' : State, Inv s → step s = .next s' → ∀ w, .tx w ∈ s'.block.trace →
    .tx w ∈ s.block.trace ∨ (0x1100 ≤ w.toNat ∧ w.toNat ≤ 0x11FF) ∨ (0x2100 ≤ w.toNat ∧ w.toNat ≤ 0x21FF)

/-- R235: chip-select never rises inside a frame before the frame's word is received, unless the timeout aborts the
frame (60_exceptions R205). -/
def Obligations.ChipSelectRisesOnlyAfterTheExchange : Prop :=
  ∀ s s' : State, Inv s → step s = .next s' → s.block.csN = some 0#1 → s'.block.csN = some 1#1 →
    (s.block.phase = .csDeassert ∧ s.transport.rxAvail = true) ∨
    (∃ n, s.params.xportTimeout = some n ∧ s'.block.phase = .faulted ∧ s'.block.faults.xportTimeout = true)

/-- The received word's value influences nothing: from two states that differ in it alone, a step gives states that
differ at most in it (20_memory R57, 41_transaction_sequencer R129). -/
def Obligations.ReceivedValueInfluencesNothing : Prop :=
  ∀ (s s' : State) (v : CmdWord), step s = .next s' →
    ∃ t', step (withRxWord v s) = .next t' ∧ withRxWord 0#16 t' = withRxWord 0#16 s'

/-- R37: no step writes the parameters. -/
def Obligations.ParametersNeverChange : Prop :=
  ∀ s s' : State, step s = .next s' → s'.params = s.params

/-! ### The device's reading of the command words -/

/-- CMD_WRITE_POT0, for every word with `w & 0x3100 = 0x1100` (40_command_encoder R104): the device's wiper takes
`w[7:0]` and a device out of shutdown stays out of it; nothing of the block or the transport changes. A device in
shutdown may or may not stay in it (log 12). -/
def Obligations.CmdWritePot0SetsTheDeviceWiper : Prop :=
  ∀ (s : State) (w : CmdWord), w &&& 0x3100#16 = 0x1100#16 →
    ∃ s' x1 x0 p1, decodeCmd w = .cmdWritePot0 x1 x0 p1 (w.setWidth 8) ∧
      exec (.cmdWritePot0 x1 x0 p1 (w.setWidth 8)) s = .next s' ∧
      s'.device.wiper = w.setWidth 8 ∧ s'.device.frame = s.device.frame ∧
      (s.device.shutdown = false → s'.device.shutdown = false) ∧
      s'.block = s.block ∧ s'.transport = s.transport ∧ s'.params = s.params ∧ s'.inputs = s.inputs

/-- CMD_SHUTDOWN_POT0, for every word with `w & 0x3100 = 0x2100` (40_command_encoder R105): the device enters
shutdown, whatever the data byte; nothing of the block or the transport changes. -/
def Obligations.CmdShutdownPot0EntersShutdown : Prop :=
  ∀ (s : State) (w : CmdWord), w &&& 0x3100#16 = 0x2100#16 →
    ∃ s' x1 x0 p1 d, decodeCmd w = .cmdShutdownPot0 x1 x0 p1 d ∧
      exec (.cmdShutdownPot0 x1 x0 p1 d) s = .next s' ∧
      s'.device.shutdown = true ∧ s'.device.frame = s.device.frame ∧
      (∀ d', exec (.cmdShutdownPot0 x1 x0 p1 d') s = .next s') ∧
      s'.block = s.block ∧ s'.transport = s.transport ∧ s'.params = s.params ∧ s'.inputs = s.inputs

/-- R106: the two no-operation words change nothing, whatever their other bits. Decision D26 lists their effect on the
device's state as unknown; that the rule is followed is the model's choice (log 26). -/
def Obligations.CmdNopsChangeNothing : Prop :=
  ∀ (s : State) (w : CmdWord), w &&& 0x3000#16 = 0x0000#16 ∨ w &&& 0x3000#16 = 0x3000#16 →
    (∃ x1 x0 p1 p0 d, (decodeCmd w = .cmdNop00 x1 x0 p1 p0 d ∨ decodeCmd w = .cmdNop11 x1 x0 p1 p0 d) ∧
      exec (.cmdNop00 x1 x0 p1 p0 d) s = .next s ∧ exec (.cmdNop11 x1 x0 p1 p0 d) s = .next s) ∧
    exec (decodeCmd w) s = .next s

/-- A write or shutdown word with `P0 = 0` has no meaning in the source: it is refused by name
(40_command_encoder R107; the refusal is the spec's treatment in 93_implementation_defined; log 14). -/
def Obligations.NoPotWordsAreRefused : Prop :=
  ∀ (s : State) (w : CmdWord),
    (w &&& 0x3100#16 = 0x1000#16 → exec (decodeCmd w) s = .refused .writeNoPot) ∧
    (w &&& 0x3100#16 = 0x2000#16 → exec (decodeCmd w) s = .refused .shutdownNoPot)
end

