-- ==== Sys2Proof/Laws/Decode.lean ====
section
/-! SUPPORT. The fields of a packed word, once for each field, and a word from its own fields. -/

namespace Sys2Proof

@[simp] theorem reqOp_packHost (op : OpField) (arg : Byte) : reqOp (packHost op arg) = op := by
  ext i hi
  interval_cases i <;> simp [reqOp, packHost]

@[simp] theorem reqArg_packHost (op : OpField) (arg : Byte) : reqArg (packHost op arg) = arg := by
  ext i hi
  interval_cases i <;> simp [reqArg, packHost]

/-- A request is determined by its two fields (30_encoding R70). -/
@[simp] theorem packHost_fields (w : ReqWord) : packHost (reqOp w) (reqArg w) = w := by
  ext i hi
  interval_cases i <;> simp [packHost, reqOp, reqArg]

@[simp] theorem decodeHost_packHost (op : OpField) (arg : Byte) : decodeHost (packHost op arg) = hostInstr op arg := by
  simp [decodeHost]

variable (x1 c x0 : BitVec 2) (p1 p0 : Bit) (d : Byte)

theorem packCmd_x1 : (packCmd x1 c x0 p1 p0 d).extractLsb' 14 2 = x1 := by
  ext i hi
  interval_cases i <;> simp [packCmd]

theorem packCmd_c : (packCmd x1 c x0 p1 p0 d).extractLsb' 12 2 = c := by
  ext i hi
  interval_cases i <;> simp [packCmd]

theorem packCmd_x0 : (packCmd x1 c x0 p1 p0 d).extractLsb' 10 2 = x0 := by
  ext i hi
  interval_cases i <;> simp [packCmd]

theorem packCmd_p1 : (packCmd x1 c x0 p1 p0 d).extractLsb' 9 1 = p1 := by
  ext i hi
  interval_cases i
  simp [packCmd]

theorem packCmd_p0 : (packCmd x1 c x0 p1 p0 d).extractLsb' 8 1 = p0 := by
  ext i hi
  interval_cases i
  simp [packCmd]

theorem packCmd_d : (packCmd x1 c x0 p1 p0 d).extractLsb' 0 8 = d := by
  ext i hi
  interval_cases i <;> simp [packCmd]

@[simp] theorem decodeCmd_packCmd : decodeCmd (packCmd x1 c x0 p1 p0 d) = cmdInstr x1 c x0 p1 p0 d := by
  simp only [decodeCmd, packCmd_x1, packCmd_c, packCmd_x0, packCmd_p1, packCmd_p0, packCmd_d]

/-- A command word is determined by its six fields (30_encoding R78). -/
theorem packCmd_fields (w : CmdWord) :
    packCmd (w.extractLsb' 14 2) (w.extractLsb' 12 2) (w.extractLsb' 10 2) (w.extractLsb' 9 1) (w.extractLsb' 8 1)
      (w.extractLsb' 0 8) = w := by
  ext i hi
  interval_cases i <;> simp [packCmd]

/-- Masking a command word with `0x3000` keeps the field C alone. -/
theorem packCmd_and_c : packCmd x1 c x0 p1 p0 d &&& 0x3000#16 = packCmd 0 c 0 0 0 0 := by
  ext i hi
  interval_cases i <;> simp [packCmd]

/-- Masking a command word with `0x3100` keeps the fields C and P0 alone. -/
theorem packCmd_and_c_p0 : packCmd x1 c x0 p1 p0 d &&& 0x3100#16 = packCmd 0 c 0 0 p0 0 := by
  ext i hi
  interval_cases i <;> simp [packCmd]

/-- Masking a request with `0x700` keeps the field `op` alone. -/
theorem packHost_and_op (op : OpField) (arg : Byte) : packHost op arg &&& 0x700#11 = packHost op 0 := by
  ext i hi
  interval_cases i <;> simp [packHost]

end Sys2Proof
end

