-- ==== Sys2Proof/Laws/State.lean ====
section
/-! SUPPORT. One lemma per field per shared operation, each true by unfolding, so that no later proof unfolds a
record update. -/

namespace Sys2Proof.Machine

@[simp] theorem emit_wiper (e : Event) (s : State) :
    (emit e s).block.wiper = s.block.wiper := rfl
@[simp] theorem emit_phase (e : Event) (s : State) :
    (emit e s).block.phase = s.block.phase := rfl
@[simp] theorem emit_curOpc (e : Event) (s : State) :
    (emit e s).block.curOpc = s.block.curOpc := rfl
@[simp] theorem emit_curPayload (e : Event) (s : State) :
    (emit e s).block.curPayload = s.block.curPayload := rfl
@[simp] theorem emit_curWord (e : Event) (s : State) :
    (emit e s).block.curWord = s.block.curWord := rfl
@[simp] theorem emit_csN (e : Event) (s : State) :
    (emit e s).block.csN = s.block.csN := rfl
@[simp] theorem emit_xportEn (e : Event) (s : State) :
    (emit e s).block.xportEn = s.block.xportEn := rfl
@[simp] theorem emit_xportCfg (e : Event) (s : State) :
    (emit e s).block.xportCfg = s.block.xportCfg := rfl
@[simp] theorem emit_status (e : Event) (s : State) :
    (emit e s).block.status = s.block.status := rfl
@[simp] theorem emit_resOhms (e : Event) (s : State) :
    (emit e s).block.resOhms = s.block.resOhms := rfl
@[simp] theorem emit_pollCount (e : Event) (s : State) :
    (emit e s).block.pollCount = s.block.pollCount := rfl
@[simp] theorem emit_faults (e : Event) (s : State) :
    (emit e s).block.faults = s.block.faults := rfl
@[simp] theorem emit_trace (e : Event) (s : State) :
    (emit e s).block.trace = s.block.trace ++ [e] := rfl
@[simp] theorem emit_params (e : Event) (s : State) :
    (emit e s).params = s.params := rfl
@[simp] theorem emit_transport (e : Event) (s : State) :
    (emit e s).transport = s.transport := rfl
@[simp] theorem emit_device (e : Event) (s : State) :
    (emit e s).device = s.device := rfl
@[simp] theorem emit_inputs (e : Event) (s : State) :
    (emit e s).inputs = s.inputs := rfl
@[simp] theorem emit_freeIndex (e : Event) (s : State) :
    (emit e s).freeIndex = s.freeIndex := rfl

@[simp] theorem raiseFault_wiper (k : FaultKind) (s : State) :
    (raiseFault k s).block.wiper = s.block.wiper := rfl
@[simp] theorem raiseFault_phase (k : FaultKind) (s : State) :
    (raiseFault k s).block.phase = .faulted := rfl
@[simp] theorem raiseFault_curOpc (k : FaultKind) (s : State) :
    (raiseFault k s).block.curOpc = s.block.curOpc := rfl
@[simp] theorem raiseFault_curPayload (k : FaultKind) (s : State) :
    (raiseFault k s).block.curPayload = s.block.curPayload := rfl
@[simp] theorem raiseFault_curWord (k : FaultKind) (s : State) :
    (raiseFault k s).block.curWord = s.block.curWord := rfl
@[simp] theorem raiseFault_csN (k : FaultKind) (s : State) :
    (raiseFault k s).block.csN = s.block.csN := rfl
@[simp] theorem raiseFault_xportEn (k : FaultKind) (s : State) :
    (raiseFault k s).block.xportEn = s.block.xportEn := rfl
@[simp] theorem raiseFault_xportCfg (k : FaultKind) (s : State) :
    (raiseFault k s).block.xportCfg = s.block.xportCfg := rfl
@[simp] theorem raiseFault_status (k : FaultKind) (s : State) :
    (raiseFault k s).block.status = s.block.status := rfl
@[simp] theorem raiseFault_resOhms (k : FaultKind) (s : State) :
    (raiseFault k s).block.resOhms = s.block.resOhms := rfl
@[simp] theorem raiseFault_pollCount (k : FaultKind) (s : State) :
    (raiseFault k s).block.pollCount = s.block.pollCount := rfl
@[simp] theorem raiseFault_faults (k : FaultKind) (s : State) :
    (raiseFault k s).block.faults = s.block.faults.insert k := rfl
@[simp] theorem raiseFault_trace (k : FaultKind) (s : State) :
    (raiseFault k s).block.trace = s.block.trace := rfl
@[simp] theorem raiseFault_params (k : FaultKind) (s : State) :
    (raiseFault k s).params = s.params := rfl
@[simp] theorem raiseFault_transport (k : FaultKind) (s : State) :
    (raiseFault k s).transport = s.transport := rfl
@[simp] theorem raiseFault_device (k : FaultKind) (s : State) :
    (raiseFault k s).device = s.device := rfl
@[simp] theorem raiseFault_inputs (k : FaultKind) (s : State) :
    (raiseFault k s).inputs = s.inputs := rfl
@[simp] theorem raiseFault_freeIndex (k : FaultKind) (s : State) :
    (raiseFault k s).freeIndex = s.freeIndex := rfl

@[simp] theorem done_wiper (r : Status) (s : State) :
    (done r s).block.wiper = s.block.wiper := rfl
@[simp] theorem done_phase (r : Status) (s : State) :
    (done r s).block.phase = .idle := rfl
@[simp] theorem done_curOpc (r : Status) (s : State) :
    (done r s).block.curOpc = s.block.curOpc := rfl
@[simp] theorem done_curPayload (r : Status) (s : State) :
    (done r s).block.curPayload = s.block.curPayload := rfl
@[simp] theorem done_curWord (r : Status) (s : State) :
    (done r s).block.curWord = s.block.curWord := rfl
@[simp] theorem done_csN (r : Status) (s : State) :
    (done r s).block.csN = s.block.csN := rfl
@[simp] theorem done_xportEn (r : Status) (s : State) :
    (done r s).block.xportEn = s.block.xportEn := rfl
@[simp] theorem done_xportCfg (r : Status) (s : State) :
    (done r s).block.xportCfg = s.block.xportCfg := rfl
@[simp] theorem done_status (r : Status) (s : State) :
    (done r s).block.status = some r := rfl
@[simp] theorem done_resOhms (r : Status) (s : State) :
    (done r s).block.resOhms = s.block.resOhms := rfl
@[simp] theorem done_pollCount (r : Status) (s : State) :
    (done r s).block.pollCount = s.block.pollCount := rfl
@[simp] theorem done_faults (r : Status) (s : State) :
    (done r s).block.faults = s.block.faults := rfl
@[simp] theorem done_trace (r : Status) (s : State) :
    (done r s).block.trace = s.block.trace ++ [.done r] := rfl
@[simp] theorem done_params (r : Status) (s : State) :
    (done r s).params = s.params := rfl
@[simp] theorem done_transport (r : Status) (s : State) :
    (done r s).transport = s.transport := rfl
@[simp] theorem done_device (r : Status) (s : State) :
    (done r s).device = s.device := rfl
@[simp] theorem done_inputs (r : Status) (s : State) :
    (done r s).inputs = s.inputs := rfl
@[simp] theorem done_freeIndex (r : Status) (s : State) :
    (done r s).freeIndex = s.freeIndex := rfl

@[simp] theorem txnStart_wiper (o : Opcode) (p : Byte) (s : State) :
    (txnStart o p s).block.wiper = s.block.wiper := rfl
@[simp] theorem txnStart_phase (o : Opcode) (p : Byte) (s : State) :
    (txnStart o p s).block.phase = .csAssert := rfl
@[simp] theorem txnStart_curOpc (o : Opcode) (p : Byte) (s : State) :
    (txnStart o p s).block.curOpc = some o := rfl
@[simp] theorem txnStart_curPayload (o : Opcode) (p : Byte) (s : State) :
    (txnStart o p s).block.curPayload = some p := rfl
@[simp] theorem txnStart_curWord (o : Opcode) (p : Byte) (s : State) :
    (txnStart o p s).block.curWord = some (encodeCommand o p) := rfl
@[simp] theorem txnStart_csN (o : Opcode) (p : Byte) (s : State) :
    (txnStart o p s).block.csN = s.block.csN := rfl
@[simp] theorem txnStart_xportEn (o : Opcode) (p : Byte) (s : State) :
    (txnStart o p s).block.xportEn = s.block.xportEn := rfl
@[simp] theorem txnStart_xportCfg (o : Opcode) (p : Byte) (s : State) :
    (txnStart o p s).block.xportCfg = s.block.xportCfg := rfl
@[simp] theorem txnStart_status (o : Opcode) (p : Byte) (s : State) :
    (txnStart o p s).block.status = s.block.status := rfl
@[simp] theorem txnStart_resOhms (o : Opcode) (p : Byte) (s : State) :
    (txnStart o p s).block.resOhms = s.block.resOhms := rfl
@[simp] theorem txnStart_pollCount (o : Opcode) (p : Byte) (s : State) :
    (txnStart o p s).block.pollCount = s.block.pollCount := rfl
@[simp] theorem txnStart_faults (o : Opcode) (p : Byte) (s : State) :
    (txnStart o p s).block.faults = s.block.faults := rfl
@[simp] theorem txnStart_trace (o : Opcode) (p : Byte) (s : State) :
    (txnStart o p s).block.trace = s.block.trace := rfl
@[simp] theorem txnStart_params (o : Opcode) (p : Byte) (s : State) :
    (txnStart o p s).params = s.params := rfl
@[simp] theorem txnStart_transport (o : Opcode) (p : Byte) (s : State) :
    (txnStart o p s).transport = s.transport := rfl
@[simp] theorem txnStart_device (o : Opcode) (p : Byte) (s : State) :
    (txnStart o p s).device = s.device := rfl
@[simp] theorem txnStart_inputs (o : Opcode) (p : Byte) (s : State) :
    (txnStart o p s).inputs = s.inputs := rfl
@[simp] theorem txnStart_freeIndex (o : Opcode) (p : Byte) (s : State) :
    (txnStart o p s).freeIndex = s.freeIndex := rfl

@[simp] theorem driveCs_wiper (b : Bit) (s : State) :
    (driveCs b s).block.wiper = s.block.wiper := rfl
@[simp] theorem driveCs_phase (b : Bit) (s : State) :
    (driveCs b s).block.phase = s.block.phase := rfl
@[simp] theorem driveCs_curOpc (b : Bit) (s : State) :
    (driveCs b s).block.curOpc = s.block.curOpc := rfl
@[simp] theorem driveCs_curPayload (b : Bit) (s : State) :
    (driveCs b s).block.curPayload = s.block.curPayload := rfl
@[simp] theorem driveCs_curWord (b : Bit) (s : State) :
    (driveCs b s).block.curWord = s.block.curWord := rfl
@[simp] theorem driveCs_csN (b : Bit) (s : State) :
    (driveCs b s).block.csN = some b := rfl
@[simp] theorem driveCs_xportEn (b : Bit) (s : State) :
    (driveCs b s).block.xportEn = s.block.xportEn := rfl
@[simp] theorem driveCs_xportCfg (b : Bit) (s : State) :
    (driveCs b s).block.xportCfg = s.block.xportCfg := rfl
@[simp] theorem driveCs_status (b : Bit) (s : State) :
    (driveCs b s).block.status = s.block.status := rfl
@[simp] theorem driveCs_resOhms (b : Bit) (s : State) :
    (driveCs b s).block.resOhms = s.block.resOhms := rfl
@[simp] theorem driveCs_pollCount (b : Bit) (s : State) :
    (driveCs b s).block.pollCount = s.block.pollCount := rfl
@[simp] theorem driveCs_faults (b : Bit) (s : State) :
    (driveCs b s).block.faults = s.block.faults := rfl
@[simp] theorem driveCs_trace (b : Bit) (s : State) :
    (driveCs b s).block.trace = s.block.trace ++ [.cs b] := rfl
@[simp] theorem driveCs_params (b : Bit) (s : State) :
    (driveCs b s).params = s.params := rfl
@[simp] theorem driveCs_transport (b : Bit) (s : State) :
    (driveCs b s).transport = s.transport := rfl
@[simp] theorem driveCs_device (b : Bit) (s : State) :
    (driveCs b s).device = s.device := rfl
@[simp] theorem driveCs_inputs (b : Bit) (s : State) :
    (driveCs b s).inputs = s.inputs := rfl
@[simp] theorem driveCs_freeIndex (b : Bit) (s : State) :
    (driveCs b s).freeIndex = s.freeIndex := rfl

@[simp] theorem freeDevice_block (s : State) : (freeDevice s).block = s.block := rfl
@[simp] theorem freeDevice_params (s : State) :
    (freeDevice s).params = s.params := rfl
@[simp] theorem freeDevice_transport (s : State) :
    (freeDevice s).transport = s.transport := rfl
@[simp] theorem freeDevice_device (s : State) :
    (freeDevice s).device = ⟨Config.freeTap s.freeIndex, Config.freeShutdown s.freeIndex, .empty⟩ := rfl
@[simp] theorem freeDevice_inputs (s : State) :
    (freeDevice s).inputs = s.inputs := rfl
@[simp] theorem freeDevice_freeIndex (s : State) :
    (freeDevice s).freeIndex = s.freeIndex + 1 := rfl

@[simp] theorem restartTransport_block (s : State) : (restartTransport s).block = s.block := rfl
@[simp] theorem restartTransport_params (s : State) :
    (restartTransport s).params = s.params := rfl
@[simp] theorem restartTransport_transport (s : State) :
    (restartTransport s).transport = { s.transport with rxAvail := false, rxOwed := false } := rfl
@[simp] theorem restartTransport_device (s : State) :
    (restartTransport s).device = s.device := rfl
@[simp] theorem restartTransport_inputs (s : State) :
    (restartTransport s).inputs = s.inputs := rfl
@[simp] theorem restartTransport_freeIndex (s : State) :
    (restartTransport s).freeIndex = s.freeIndex := rfl

@[simp] theorem csAssert_wiper (s : State) :
    (csAssert s).block.wiper = s.block.wiper := rfl
@[simp] theorem csAssert_phase (s : State) :
    (csAssert s).block.phase = .waitTx := rfl
@[simp] theorem csAssert_curOpc (s : State) :
    (csAssert s).block.curOpc = s.block.curOpc := rfl
@[simp] theorem csAssert_curPayload (s : State) :
    (csAssert s).block.curPayload = s.block.curPayload := rfl
@[simp] theorem csAssert_curWord (s : State) :
    (csAssert s).block.curWord = s.block.curWord := rfl
@[simp] theorem csAssert_csN (s : State) :
    (csAssert s).block.csN = some 0#1 := rfl
@[simp] theorem csAssert_xportEn (s : State) :
    (csAssert s).block.xportEn = s.block.xportEn := rfl
@[simp] theorem csAssert_xportCfg (s : State) :
    (csAssert s).block.xportCfg = s.block.xportCfg := rfl
@[simp] theorem csAssert_status (s : State) :
    (csAssert s).block.status = s.block.status := rfl
@[simp] theorem csAssert_resOhms (s : State) :
    (csAssert s).block.resOhms = s.block.resOhms := rfl
@[simp] theorem csAssert_pollCount (s : State) :
    (csAssert s).block.pollCount = 0 := rfl
@[simp] theorem csAssert_faults (s : State) :
    (csAssert s).block.faults = s.block.faults := rfl
@[simp] theorem csAssert_trace (s : State) :
    (csAssert s).block.trace = s.block.trace ++ [.cs 0#1] := rfl
@[simp] theorem csAssert_params (s : State) :
    (csAssert s).params = s.params := rfl
@[simp] theorem csAssert_transport (s : State) :
    (csAssert s).transport = s.transport := rfl
@[simp] theorem csAssert_device (s : State) :
    (csAssert s).device = { s.device with frame := .empty } := rfl
@[simp] theorem csAssert_inputs (s : State) :
    (csAssert s).inputs = s.inputs := rfl
@[simp] theorem csAssert_freeIndex (s : State) :
    (csAssert s).freeIndex = s.freeIndex := rfl

@[simp] theorem csDeassert_wiper (s : State) :
    (csDeassert s).block.wiper = s.block.wiper := rfl
@[simp] theorem csDeassert_phase (s : State) :
    (csDeassert s).block.phase = .drain := rfl
@[simp] theorem csDeassert_curOpc (s : State) :
    (csDeassert s).block.curOpc = s.block.curOpc := rfl
@[simp] theorem csDeassert_curPayload (s : State) :
    (csDeassert s).block.curPayload = s.block.curPayload := rfl
@[simp] theorem csDeassert_curWord (s : State) :
    (csDeassert s).block.curWord = s.block.curWord := rfl
@[simp] theorem csDeassert_csN (s : State) :
    (csDeassert s).block.csN = some 1#1 := rfl
@[simp] theorem csDeassert_xportEn (s : State) :
    (csDeassert s).block.xportEn = s.block.xportEn := rfl
@[simp] theorem csDeassert_xportCfg (s : State) :
    (csDeassert s).block.xportCfg = s.block.xportCfg := rfl
@[simp] theorem csDeassert_status (s : State) :
    (csDeassert s).block.status = s.block.status := rfl
@[simp] theorem csDeassert_resOhms (s : State) :
    (csDeassert s).block.resOhms = s.block.resOhms := rfl
@[simp] theorem csDeassert_pollCount (s : State) :
    (csDeassert s).block.pollCount = s.block.pollCount := rfl
@[simp] theorem csDeassert_faults (s : State) :
    (csDeassert s).block.faults = s.block.faults := rfl
@[simp] theorem csDeassert_trace (s : State) :
    (csDeassert s).block.trace = s.block.trace ++ [.cs 1#1] := rfl
@[simp] theorem csDeassert_params (s : State) :
    (csDeassert s).params = s.params := rfl
@[simp] theorem csDeassert_transport (s : State) :
    (csDeassert s).transport = s.transport := rfl
@[simp] theorem csDeassert_device (s : State) :
    (csDeassert s).device = s.device := rfl
@[simp] theorem csDeassert_inputs (s : State) :
    (csDeassert s).inputs = s.inputs := rfl
@[simp] theorem csDeassert_freeIndex (s : State) :
    (csDeassert s).freeIndex = s.freeIndex := rfl

@[simp] theorem drain_wiper (s : State) :
    (drain s).block.wiper = s.block.wiper := rfl
@[simp] theorem drain_phase (s : State) :
    (drain s).block.phase = .commit := rfl
@[simp] theorem drain_curOpc (s : State) :
    (drain s).block.curOpc = s.block.curOpc := rfl
@[simp] theorem drain_curPayload (s : State) :
    (drain s).block.curPayload = s.block.curPayload := rfl
@[simp] theorem drain_curWord (s : State) :
    (drain s).block.curWord = s.block.curWord := rfl
@[simp] theorem drain_csN (s : State) :
    (drain s).block.csN = s.block.csN := rfl
@[simp] theorem drain_xportEn (s : State) :
    (drain s).block.xportEn = s.block.xportEn := rfl
@[simp] theorem drain_xportCfg (s : State) :
    (drain s).block.xportCfg = s.block.xportCfg := rfl
@[simp] theorem drain_status (s : State) :
    (drain s).block.status = s.block.status := rfl
@[simp] theorem drain_resOhms (s : State) :
    (drain s).block.resOhms = s.block.resOhms := rfl
@[simp] theorem drain_pollCount (s : State) :
    (drain s).block.pollCount = s.block.pollCount := rfl
@[simp] theorem drain_faults (s : State) :
    (drain s).block.faults = s.block.faults := rfl
@[simp] theorem drain_trace (s : State) :
    (drain s).block.trace = s.block.trace ++ [.rxDrain] := rfl
@[simp] theorem drain_params (s : State) :
    (drain s).params = s.params := rfl
@[simp] theorem drain_transport (s : State) :
    (drain s).transport = { s.transport with rxAvail := false } := rfl
@[simp] theorem drain_device (s : State) :
    (drain s).device = s.device := rfl
@[simp] theorem drain_inputs (s : State) :
    (drain s).inputs = s.inputs := rfl
@[simp] theorem drain_freeIndex (s : State) :
    (drain s).freeIndex = s.freeIndex := rfl

@[simp] theorem faultSet_has_empty (k : FaultKind) : FaultSet.empty.has k = false := by cases k <;> rfl

@[simp] theorem faultSet_has_insert (f : FaultSet) (j k : FaultKind) :
    (f.insert k).has j = (decide (j = k) || f.has j) := by
  cases j <;> cases k <;> simp [FaultSet.insert, FaultSet.has]

/-- Two fault sets with the same members are equal: the six bits are a canonical form. -/
theorem faultSet_ext {f g : FaultSet} (h : ∀ k, f.has k = g.has k) : f = g := by
  cases f
  cases g
  have h1 := h .notInit
  have h2 := h .doubleInit
  have h3 := h .busy
  have h4 := h .illegalOp
  have h5 := h .xportTimeout
  have h6 := h .undefRead
  simp_all [FaultSet.has]

theorem faultSet_insert_ne_empty (f : FaultSet) (k : FaultKind) : f.insert k ≠ FaultSet.empty := by
  intro h
  have := congrArg (fun g => g.has k) h
  simp at this

@[simp] theorem busError_params (s : State) : (busError s).params = s.params := rfl
@[simp] theorem busError_block (s : State) : (busError s).block = s.block := rfl
@[simp] theorem busError_transport (s : State) : (busError s).transport = s.transport := rfl
@[simp] theorem busError_inputs (s : State) : (busError s).inputs = s.inputs := rfl
@[simp] theorem busError_freeIndex (s : State) : (busError s).freeIndex = s.freeIndex := rfl
@[simp] theorem devicePowerUp_params (s : State) : (devicePowerUp s).params = s.params := rfl
@[simp] theorem devicePowerUp_block (s : State) : (devicePowerUp s).block = s.block := rfl
@[simp] theorem devicePowerUp_transport (s : State) : (devicePowerUp s).transport = s.transport := rfl
@[simp] theorem devicePowerUp_inputs (s : State) : (devicePowerUp s).inputs = s.inputs := rfl
@[simp] theorem busError_wiper (s : State) : (busError s).device.wiper = s.device.wiper := rfl
@[simp] theorem busError_shutdown (s : State) : (busError s).device.shutdown = s.device.shutdown := rfl
@[simp] theorem devicePowerUp_wiper (s : State) : (devicePowerUp s).device.wiper = 128#8 := rfl

/-- The frame after a bus error: interrupted when one is open. -/
theorem busError_frame (s : State) :
    (s.block.csN = some 0#1 ∧ (busError s).device.frame = .interrupted) ∨
    (s.block.csN ≠ some 0#1 ∧ busError s = s) := by
  by_cases h : s.block.csN = some 0#1 <;> simp [busError, h]

end Sys2Proof.Machine
end

