-- ==== Sys2Proof/Laws/Ops.lean ====
section
/-! SUPPORT. One lemma per shared operation that says everything it can do. -/

namespace Sys2Proof.Machine

/-- Reading a field: it raises UNDEF_READ on `⊥`, and otherwise goes on with the value. -/
theorem withValue_cases {α : Type} (f : Option α) (s : State) (k : α → State) :
    (f = none ∧ withValue f s k = raiseFault .undefRead s) ∨ (∃ v, f = some v ∧ withValue f s k = k v) := by
  cases f with
  | none => exact .inl ⟨rfl, rfl⟩
  | some v => exact .inr ⟨v, rfl, rfl⟩

@[simp] theorem withValue_none {α : Type} (s : State) (k : α → State) :
    withValue none s k = raiseFault .undefRead s := rfl

@[simp] theorem withValue_some {α : Type} (v : α) (s : State) (k : α → State) : withValue (some v) s k = k v := rfl

/-- The arrival of a request always answers a next state: the same one (faulted), a fault, or the operation's. -/
theorem onRequest_cases (op : OpField) (s : State) (g : State → State) :
    (s.block.phase = .faulted ∧ onRequest op s g = .next s) ∨
    (s.block.phase ≠ .faulted ∧ ∃ k, requestFault op s.block.phase = some k ∧
      onRequest op s g = .next (raiseFault k s)) ∨
    (s.block.phase ≠ .faulted ∧ requestFault op s.block.phase = none ∧ onRequest op s g = .next (g s)) := by
  unfold onRequest
  split
  · exact .inl ⟨‹_›, rfl⟩
  · split
    · exact .inr (.inl ⟨‹_›, _, ‹_›, rfl⟩)
    · exact .inr (.inr ⟨‹_›, ‹_›, rfl⟩)

/-- Which requests are accepted (60_exceptions R206 item 6): INIT in UNINIT, the other operations in IDLE. -/
theorem requestFault_eq_none (op : OpField) (ph : Phase) (hf : ph ≠ .faulted) :
    requestFault op ph = none ↔
      opReserved op = false ∧ ((ph = .uninit ∧ op = opInit) ∨ (ph = .idle ∧ op ≠ opInit)) := by
  unfold requestFault
  cases h : opReserved op <;> cases ph <;> simp_all [Phase.isTransaction]

/-- A request never raises UNDEF_READ or XPORT_TIMEOUT by its arrival (60_exceptions R206). -/
theorem requestFault_ne_undefRead (op : OpField) (ph : Phase) : requestFault op ph ≠ some .undefRead := by
  unfold requestFault
  repeat' split
  all_goals simp

theorem requestFault_idle {op : OpField} (h1 : opReserved op = false) (h2 : op ≠ opInit) :
    requestFault op .idle = none := by
  rw [requestFault_eq_none _ _ (by simp)]
  exact ⟨h1, .inr ⟨rfl, h2⟩⟩

/-- A request accepted in IDLE runs its operation. -/
theorem onRequest_idle {op : OpField} {s : State} (g : State → State) (hp : s.block.phase = .idle)
    (h1 : opReserved op = false) (h2 : op ≠ opInit) : onRequest op s g = .next (g s) := by
  rcases onRequest_cases op s g with ⟨h, _⟩ | ⟨_, k, h, _⟩ | ⟨_, _, h⟩
  · simp [hp] at h
  · rw [hp, requestFault_idle h1 h2] at h
    cases h
  · exact h

/-- A failed poll: one more counted, or the frame released and XPORT_TIMEOUT raised (60_exceptions R205). -/
theorem failedPoll_cases (n : Nat) (s : State) :
    (s.block.pollCount + 1 < n ∧
      failedPoll n s = { s with block := { s.block with pollCount := s.block.pollCount + 1 } }) ∨
    (n ≤ s.block.pollCount + 1 ∧ failedPoll n s = raiseFault .xportTimeout (abortFrame (driveCs 1#1 s))) := by
  unfold failedPoll
  split
  · exact .inl ⟨‹_›, rfl⟩
  · exact .inr ⟨by omega, rfl⟩

/-- A wait phase: it goes on, is held, or takes a failed poll. -/
theorem awaitPhase_cases (r : Bool) (ph : Phase) (s : State) :
    (r = true ∧ awaitPhase r ph s = .next { s with block := { s.block with phase := ph } }) ∨
    (r = false ∧ s.params.xportTimeout = none ∧ awaitPhase r ph s = .fault .held) ∨
    (r = false ∧ ∃ n, s.params.xportTimeout = some n ∧ awaitPhase r ph s = .next (failedPoll n s)) := by
  unfold awaitPhase
  cases r with
  | true => exact .inl ⟨rfl, rfl⟩
  | false =>
    cases h : s.params.xportTimeout with
    | none => exact .inr (.inl ⟨rfl, rfl, by simp⟩)
    | some n => exact .inr (.inr ⟨rfl, n, rfl, by simp⟩)

/-- The early close of a frame touches the device and the free counter only. -/
theorem abortFrame_cases (s : State) :
    (s.device.frame = .empty ∧ abortFrame s = s) ∨ (s.device.frame ≠ .empty ∧ abortFrame s = freeDevice s) := by
  unfold abortFrame
  cases h : s.device.frame with
  | empty => exact .inl ⟨rfl, rfl⟩
  | carries w => exact .inr ⟨by simp, rfl⟩
  | interrupted => exact .inr ⟨by simp, rfl⟩

@[simp] theorem abortFrame_block (s : State) : (abortFrame s).block = s.block := by
  rcases abortFrame_cases s with ⟨_, h⟩ | ⟨_, h⟩ <;> simp [h]

@[simp] theorem abortFrame_params (s : State) : (abortFrame s).params = s.params := by
  rcases abortFrame_cases s with ⟨_, h⟩ | ⟨_, h⟩ <;> simp [h]

@[simp] theorem abortFrame_transport (s : State) : (abortFrame s).transport = s.transport := by
  rcases abortFrame_cases s with ⟨_, h⟩ | ⟨_, h⟩ <;> simp [h]

@[simp] theorem abortFrame_inputs (s : State) : (abortFrame s).inputs = s.inputs := by
  rcases abortFrame_cases s with ⟨_, h⟩ | ⟨_, h⟩ <;> simp [h]

@[simp] theorem abortFrame_frame (s : State) : (abortFrame s).device.frame = .empty := by
  rcases abortFrame_cases s with ⟨h', h⟩ | ⟨_, h⟩ <;> rw [h]
  · exact h'
  · rfl

/-- Reset restores `S` in every case; the device keeps its state unless a frame was open. -/
theorem resetBlock_cases (s : State) :
    (frameOpen s.block = true ∧ resetBlock s = freeDevice { s with block := Block.reset }) ∨
    (frameOpen s.block = false ∧ resetBlock s = { s with block := Block.reset }) := by
  unfold resetBlock
  cases h : frameOpen s.block
  · exact .inr ⟨rfl, by simp⟩
  · exact .inl ⟨rfl, by simp⟩

@[simp] theorem resetBlock_block (s : State) : (resetBlock s).block = Block.reset := by
  rcases resetBlock_cases s with ⟨_, h⟩ | ⟨_, h⟩ <;> simp [h]

@[simp] theorem resetBlock_params (s : State) : (resetBlock s).params = s.params := by
  rcases resetBlock_cases s with ⟨_, h⟩ | ⟨_, h⟩ <;> simp [h]

@[simp] theorem resetBlock_transport (s : State) : (resetBlock s).transport = s.transport := by
  rcases resetBlock_cases s with ⟨_, h⟩ | ⟨_, h⟩ <;> simp [h]

@[simp] theorem resetBlock_inputs (s : State) : (resetBlock s).inputs = s.inputs := by
  rcases resetBlock_cases s with ⟨_, h⟩ | ⟨_, h⟩ <;> simp [h]

/-- INIT's fields, at once (44_lifecycle R190). -/
theorem initFields_eq (arg : Byte) (s : State) :
    initFields arg s =
      { s with
        block :=
          { s.block with
            wiper := some s.params.initTap
            phase := .idle
            csN := some 1#1
            xportEn := some 1#1
            xportCfg := some (initCfg s.params)
            status := some .ok
            trace := s.block.trace ++
              [.req opInit arg, .xen 0#1, .cs 1#1, .xcfg (initCfg s.params), .xen 1#1, .done .ok] }
        transport := { s.transport with rxAvail := false, rxOwed := false } } := by
  simp [initFields, emit, driveCs, restartTransport, done]

theorem incresAccepted_undef {s : State} {delta : Byte} (h : s.block.wiper = none) :
    incresAccepted delta s = raiseFault .undefRead s := by
  simp [incresAccepted, h]

/-- INCRES out of range is rejected (42_wiper_bounds R150, R153). -/
theorem incresAccepted_reject {s : State} {delta p : Byte} (h : s.block.wiper = some p) (hd : p.toNat < delta.toNat) :
    incresAccepted delta s = done .rejected (emit (.req 0b100#3 delta) s) := by
  simp [incresAccepted, h, underflows, hd]

/-- INCRES in range starts a write of the lower tap (42_wiper_bounds R150). -/
theorem incresAccepted_move {s : State} {delta p : Byte} (h : s.block.wiper = some p) (hd : delta.toNat ≤ p.toNat) :
    incresAccepted delta s = txnStart .write (p - delta) (emit (.req 0b100#3 delta) s) := by
  have : ¬ p.toNat < delta.toNat := by omega
  simp [incresAccepted, h, underflows, this]

theorem decresAccepted_undef {s : State} {delta : Byte} (h : s.block.wiper = none) :
    decresAccepted delta s = raiseFault .undefRead s := by
  simp [decresAccepted, h]

/-- DECRES out of range is rejected, on the exact sum (42_wiper_bounds R155, R156). -/
theorem decresAccepted_reject {s : State} {delta p : Byte} (h : s.block.wiper = some p)
    (hd : 255 < p.toNat + delta.toNat) :
    decresAccepted delta s = done .rejected (emit (.req 0b101#3 delta) s) := by
  simp [decresAccepted, h, overflows, Config.maxTap, hd]

/-- DECRES in range starts a write of the higher tap (42_wiper_bounds R155). -/
theorem decresAccepted_move {s : State} {delta p : Byte} (h : s.block.wiper = some p)
    (hd : p.toNat + delta.toNat ≤ 255) :
    decresAccepted delta s = txnStart .write (p + delta) (emit (.req 0b101#3 delta) s) := by
  have : ¬ 255 < p.toNat + delta.toNat := by omega
  simp [decresAccepted, h, overflows, Config.maxTap, this]

theorem getresAccepted_undef {s : State} {arg : Byte} (h : s.block.wiper = none) :
    getresAccepted arg s = raiseFault .undefRead s := by
  simp [getresAccepted, h]

/-- GETRES writes the result output and completes (43_resistance R176). -/
theorem getresAccepted_read {s : State} {arg p : Byte} (h : s.block.wiper = some p) :
    getresAccepted arg s =
      done .ok
        { emit (.req 0b110#3 arg) s with
          block :=
            { (emit (.req 0b110#3 arg) s).block with
              resOhms := some (resistanceOhms s.params.ladderOhms s.params.wiperOhms p) } } := by
  simp [getresAccepted, h]

/-- SUBMIT's fields, at once (41_transaction_sequencer R123). -/
theorem submit_some {s : State} {w : CmdWord} (h : s.block.curWord = some w) :
    submit s =
      { s with
        block := { s.block with trace := s.block.trace ++ [.tx w], pollCount := 0, phase := .waitRx }
        transport := { s.transport with rxOwed := true }
        device := { s.device with frame := s.device.frame.carry w } } := by
  simp [submit, h, emit]

theorem submit_none {s : State} (h : s.block.curWord = none) : submit s = raiseFault .undefRead s := by
  simp [submit, h]

/-- COMMIT of a WRITE-opcode transaction (41_transaction_sequencer R128). -/
theorem commit_write {s : State} {p : Byte} (ho : s.block.curOpc = some .write) (hp : s.block.curPayload = some p) :
    commit s = done .ok { s with block := { s.block with wiper := some p } } := by
  simp [commit, ho, hp]

/-- COMMIT of a SHUTDOWN transaction (41_transaction_sequencer R128). -/
theorem commit_shutdown {s : State} (ho : s.block.curOpc = some .shutdown) : commit s = done .ok s := by
  simp [commit, ho]

/-- COMMIT reads a latch field that holds `⊥` in the remaining cases. -/
theorem commit_undef {s : State} (h : s.block.curOpc = none ∨ (s.block.curOpc = some .write ∧ s.block.curPayload = none)) :
    commit s = raiseFault .undefRead s := by
  rcases h with h | ⟨h, h'⟩ <;> simp [commit, h]
  simp [h']

/-- The command words read by the device leave the block, the transport, the parameters and the inputs alone. -/
theorem deviceReads_frame {w : CmdWord} {s s' : State} (h : deviceReads w s = .next s') :
    s'.block = s.block ∧ s'.transport = s.transport ∧ s'.params = s.params ∧ s'.inputs = s.inputs ∧
      s'.device.frame = s.device.frame := by
  unfold deviceReads decodeCmd cmdInstr at h
  split at h <;>
    simp only [exec, execCmdNop00, execCmdWriteNopot, execCmdWritePot0, execCmdShutdownNopot, execCmdShutdownPot0,
      execCmdNop11, reduceCtorEq, Host.Outcome.next.injEq] at h <;>
    subst h <;> simp

/-- The device at the close of a frame leaves the block, the transport, the parameters and the inputs alone, and its
frame is empty. -/
theorem closeFrame_frame {s s' : State} (h : closeFrame s = .next s') :
    s'.block = s.block ∧ s'.transport = s.transport ∧ s'.params = s.params ∧ s'.inputs = s.inputs ∧
      s'.device.frame = .empty := by
  unfold closeFrame at h
  split at h
  · cases h
    exact ⟨rfl, rfl, rfl, rfl, ‹_›⟩
  · exact deviceReads_frame h
  · cases h
    exact ⟨rfl, rfl, rfl, rfl, rfl⟩

end Sys2Proof.Machine
end

