-- ==== Sys2Proof/Laws/Step.lean ====
section
/-! SUPPORT. What a step can do, said once: the inversion lemmas of the request port, the block's phase step, an
input and a step. -/

namespace Sys2Proof.Machine

/-- What an operation accepted in IDLE does (41 R130, R132; 42 R150, R155; 43 R176). -/
inductive Accepted (s : State) : Instr → State → Prop where
  | write (tap : Byte) : Accepted s (.write tap) (txnStart .write tap (emit (.req 0b010#3 tap) s))
  | shutdown (payload : Byte) :
      Accepted s (.shutdown payload) (txnStart .shutdown payload (emit (.req 0b011#3 payload) s))
  | incresUndef (delta : Byte) : s.block.wiper = none → Accepted s (.incres delta) (raiseFault .undefRead s)
  | incresReject (delta p : Byte) : s.block.wiper = some p → p.toNat < delta.toNat →
      Accepted s (.incres delta) (done .rejected (emit (.req 0b100#3 delta) s))
  | incres (delta p : Byte) : s.block.wiper = some p → delta.toNat ≤ p.toNat →
      Accepted s (.incres delta) (txnStart .write (p - delta) (emit (.req 0b100#3 delta) s))
  | decresUndef (delta : Byte) : s.block.wiper = none → Accepted s (.decres delta) (raiseFault .undefRead s)
  | decresReject (delta p : Byte) : s.block.wiper = some p → 255 < p.toNat + delta.toNat →
      Accepted s (.decres delta) (done .rejected (emit (.req 0b101#3 delta) s))
  | decres (delta p : Byte) : s.block.wiper = some p → p.toNat + delta.toNat ≤ 255 →
      Accepted s (.decres delta) (txnStart .write (p + delta) (emit (.req 0b101#3 delta) s))
  | getresUndef (arg : Byte) : s.block.wiper = none → Accepted s (.getres arg) (raiseFault .undefRead s)
  | getres (arg p : Byte) : s.block.wiper = some p →
      Accepted s (.getres arg)
        (done .ok
          { emit (.req 0b110#3 arg) s with
            block :=
              { (emit (.req 0b110#3 arg) s).block with
                resOhms := some (resistanceOhms s.params.ladderOhms s.params.wiperOhms p) } })

/-- The operation code of a host operation (30_encoding R73). -/
def hostOp : Instr → OpField
  | .reserved000 _ => 0b000#3
  | .init _ => 0b001#3
  | .write _ => 0b010#3
  | .shutdown _ => 0b011#3
  | .incres _ => 0b100#3
  | .decres _ => 0b101#3
  | .getres _ => 0b110#3
  | .reserved111 _ => 0b111#3
  | _ => 0b000#3

/-- Everything a host operation can do: a faulted block does not take it, a fault is raised by R206, INIT runs from
UNINIT, or another operation runs from IDLE. -/
theorem exec_host_cases {i : Instr} (hi : i.format = .hostop) (s : State) :
    (s.block.phase = .faulted ∧ exec i s = .next s) ∨
    (s.block.phase ≠ .faulted ∧ ∃ k, requestFault (hostOp i) s.block.phase = some k ∧
      exec i s = .next (raiseFault k s)) ∨
    (s.block.phase = .uninit ∧ ∃ arg, i = .init arg ∧ exec i s = .next (initFields arg s)) ∨
    (s.block.phase = .idle ∧ ∃ s', Accepted s i s' ∧ exec i s = .next s') := by
  have key : ∀ (op : OpField) (g : State → State), hostOp i = op → exec i s = onRequest op s g →
      (requestFault op s.block.phase = none → s.block.phase ≠ .faulted →
        (s.block.phase = .uninit ∧ ∃ arg, i = .init arg ∧ g s = initFields arg s) ∨
        (s.block.phase = .idle ∧ Accepted s i (g s))) →
      (s.block.phase = .faulted ∧ exec i s = .next s) ∨
      (s.block.phase ≠ .faulted ∧ ∃ k, requestFault (hostOp i) s.block.phase = some k ∧
        exec i s = .next (raiseFault k s)) ∨
      (s.block.phase = .uninit ∧ ∃ arg, i = .init arg ∧ exec i s = .next (initFields arg s)) ∨
      (s.block.phase = .idle ∧ ∃ s', Accepted s i s' ∧ exec i s = .next s') := by
    intro op g ho he hg
    rcases onRequest_cases op s g with ⟨h, h'⟩ | ⟨h, k, hk, h'⟩ | ⟨h, hn, h'⟩
    · exact .inl ⟨h, he.trans h'⟩
    · exact .inr (.inl ⟨h, k, by rw [ho]; exact hk, he.trans h'⟩)
    · rcases hg hn h with ⟨hp, arg, hi', hgs⟩ | ⟨hp, ha⟩
      · exact .inr (.inr (.inl ⟨hp, arg, hi', by rw [he, h', hgs]⟩))
      · exact .inr (.inr (.inr ⟨hp, _, ha, by rw [he, h']⟩))
  have idle : ∀ op : OpField, op ≠ opInit → requestFault op s.block.phase = none → s.block.phase ≠ .faulted →
      s.block.phase = .idle := by
    intro op h1 h2 h3
    rcases (requestFault_eq_none op _ h3).1 h2 with ⟨_, ⟨_, h⟩ | ⟨h, _⟩⟩
    · exact absurd h h1
    · exact h
  have reserved : ∀ op : OpField, opReserved op = true → requestFault op s.block.phase = none →
      s.block.phase ≠ .faulted → False := by
    intro op h1 h2 h3
    have := ((requestFault_eq_none op _ h3).1 h2).1
    rw [h1] at this
    cases this
  cases i with
  | reserved000 arg => exact key 0b000#3 (fun s => s) rfl rfl fun h1 h2 => (reserved _ rfl h1 h2).elim
  | reserved111 arg => exact key 0b111#3 (fun s => s) rfl rfl fun h1 h2 => (reserved _ rfl h1 h2).elim
  | init arg =>
    refine key opInit (initFields arg) rfl rfl fun h1 h2 => .inl ⟨?_, arg, rfl, rfl⟩
    rcases (requestFault_eq_none _ _ h2).1 h1 with ⟨_, ⟨h, _⟩ | ⟨_, h⟩⟩
    · exact h
    · exact absurd rfl h
  | write tap => exact key 0b010#3 (writeAccepted tap) rfl rfl fun h1 h2 => .inr ⟨idle _ (by decide) h1 h2, .write tap⟩
  | shutdown payload => exact key 0b011#3 (shutdownAccepted payload) rfl rfl fun h1 h2 => .inr ⟨idle _ (by decide) h1 h2, .shutdown payload⟩
  | incres delta =>
    refine key 0b100#3 (incresAccepted delta) rfl rfl fun h1 h2 => .inr ⟨idle _ (by decide) h1 h2, ?_⟩
    cases hw : s.block.wiper with
    | none => exact incresAccepted_undef hw ▸ .incresUndef delta hw
    | some p =>
      by_cases hd : p.toNat < delta.toNat
      · exact incresAccepted_reject hw hd ▸ .incresReject delta p hw hd
      · exact incresAccepted_move (delta := delta) hw (by omega) ▸ .incres delta p hw (by omega)
  | decres delta =>
    refine key 0b101#3 (decresAccepted delta) rfl rfl fun h1 h2 => .inr ⟨idle _ (by decide) h1 h2, ?_⟩
    cases hw : s.block.wiper with
    | none => exact decresAccepted_undef hw ▸ .decresUndef delta hw
    | some p =>
      by_cases hd : 255 < p.toNat + delta.toNat
      · exact decresAccepted_reject hw hd ▸ .decresReject delta p hw hd
      · exact decresAccepted_move (delta := delta) hw (by omega) ▸ .decres delta p hw (by omega)
  | getres arg =>
    refine key 0b110#3 (getresAccepted arg) rfl rfl fun h1 h2 => .inr ⟨idle _ (by decide) h1 h2, ?_⟩
    cases hw : s.block.wiper with
    | none => exact getresAccepted_undef hw ▸ .getresUndef arg hw
    | some p => exact getresAccepted_read hw ▸ .getres arg p hw
  | cmdNop00 => cases hi
  | cmdWritePot0 => cases hi
  | cmdWriteNopot => cases hi
  | cmdShutdownPot0 => cases hi
  | cmdShutdownNopot => cases hi
  | cmdNop11 => cases hi

@[simp] theorem hostOp_hostInstr (op : OpField) (arg : Byte) : hostOp (hostInstr op arg) = op := by
  have h : op = 0 ∨ op = 1 ∨ op = 2 ∨ op = 3 ∨ op = 4 ∨ op = 5 ∨ op = 6 ∨ op = 7 := by
    revert op
    decide
  rcases h with rfl | rfl | rfl | rfl | rfl | rfl | rfl | rfl <;> rfl

/-- A host operation on which R206 finds a fault raises it. -/
theorem exec_host_fault {i : Instr} (hi : i.format = .hostop) {s : State} {k : FaultKind}
    (hp : s.block.phase ≠ .faulted) (hk : requestFault (hostOp i) s.block.phase = some k) :
    exec i s = .next (raiseFault k s) := by
  rcases exec_host_cases hi s with ⟨h, _⟩ | ⟨_, k', h1, h2⟩ | ⟨h, arg, rfl, _⟩ | ⟨h, s', ha, _⟩
  · exact absurd h hp
  · rw [hk] at h1
    cases h1
    exact h2
  · rw [h] at hk
    simp [requestFault, hostOp, opInit, opReserved, Phase.isTransaction] at hk
  · rw [h] at hk
    cases ha <;> simp [requestFault, hostOp, opInit, opReserved, Phase.isTransaction] at hk

/-- The request port only ever decodes to a host operation. -/
theorem decodeHost_format (w : ReqWord) : (decodeHost w).format = .hostop := by
  unfold decodeHost hostInstr
  split <;> rfl

/-- Everything the block's phase step can do. -/
theorem blockStep_cases {s s' : State} (h : blockStep s = .next s') :
    (s.block.phase = .csAssert ∧ s' = csAssert s) ∨
    (s.block.phase = .waitTx ∧ s.transport.txFree = true ∧ s' = { s with block := { s.block with phase := .submit } }) ∨
    (s.block.phase = .waitTx ∧ s.transport.txFree = false ∧ ∃ n, s.params.xportTimeout = some n ∧ s' = failedPoll n s) ∨
    (s.block.phase = .submit ∧ s' = submit s) ∨
    (s.block.phase = .waitRx ∧ s.transport.rxAvail = true ∧
      s' = { s with block := { s.block with phase := .csDeassert } }) ∨
    (s.block.phase = .waitRx ∧ s.transport.rxAvail = false ∧
      ∃ n, s.params.xportTimeout = some n ∧ s' = failedPoll n s) ∨
    (s.block.phase = .csDeassert ∧ closeFrame (csDeassert s) = .next s') ∨
    (s.block.phase = .drain ∧ s' = drain s) ∨
    (s.block.phase = .commit ∧ s' = commit s) := by
  unfold blockStep at h
  cases hp : s.block.phase <;> simp only [hp, reduceCtorEq, Host.Outcome.next.injEq] at h
  · exact .inl ⟨rfl, h.symm⟩
  · rcases awaitPhase_cases s.transport.txFree .submit s with ⟨hr, he⟩ | ⟨_, _, he⟩ | ⟨hr, n, hn, he⟩ <;>
      rw [he] at h <;> cases h
    · exact .inr (.inl ⟨rfl, hr, rfl⟩)
    · exact .inr (.inr (.inl ⟨rfl, hr, n, hn, rfl⟩))
  · exact .inr (.inr (.inr (.inl ⟨rfl, h.symm⟩)))
  · rcases awaitPhase_cases s.transport.rxAvail .csDeassert s with ⟨hr, he⟩ | ⟨_, _, he⟩ | ⟨hr, n, hn, he⟩ <;>
      rw [he] at h <;> cases h
    · exact .inr (.inr (.inr (.inr (.inl ⟨rfl, hr, rfl⟩))))
    · exact .inr (.inr (.inr (.inr (.inr (.inl ⟨rfl, hr, n, hn, rfl⟩)))))
  · exact .inr (.inr (.inr (.inr (.inr (.inr (.inl ⟨rfl, h⟩))))))
  · exact .inr (.inr (.inr (.inr (.inr (.inr (.inr (.inl ⟨rfl, h.symm⟩)))))))
  · exact .inr (.inr (.inr (.inr (.inr (.inr (.inr (.inr ⟨rfl, h.symm⟩)))))))

/-- Everything one act can do. -/
theorem takeInput_cases {e : Input} {s s' : State} (h : takeInput e s = .next s') :
    (∃ req, e = .request req ∧ exec (decodeHost req) s = .next s') ∨
    (e = .block ∧ blockStep s = .next s') ∨
    (∃ b, e = .txFree b ∧ s' = { s with transport := { s.transport with txFree := b } }) ∨
    (∃ w, e = .receive w ∧ s.transport.rxOwed = true ∧
      s' = { s with transport := { s.transport with rxAvail := true, rxWord := w, rxOwed := false } }) ∨
    (e = .reset ∧ s' = resetBlock s) ∨
    (e = .powerUp ∧ s' = devicePowerUp s) ∨
    (e = .busError ∧ s' = busError s) ∨
    (∃ w, e = .frame w ∧ deviceReads w s = .next s') := by
  cases e with
  | request req => exact .inl ⟨req, rfl, h⟩
  | block => exact .inr (.inl ⟨rfl, h⟩)
  | txFree b => exact .inr (.inr (.inl ⟨b, rfl, by cases h; rfl⟩))
  | receive w =>
    simp only [takeInput, receiveWord] at h
    split at h
    · exact .inr (.inr (.inr (.inl ⟨w, rfl, ‹_›, by cases h; rfl⟩)))
    · cases h
  | reset => exact .inr (.inr (.inr (.inr (.inl ⟨rfl, by cases h; rfl⟩))))
  | powerUp => exact .inr (.inr (.inr (.inr (.inr (.inl ⟨rfl, by cases h; rfl⟩)))))
  | busError => exact .inr (.inr (.inr (.inr (.inr (.inr (.inl ⟨rfl, by cases h; rfl⟩))))))
  | frame w => exact .inr (.inr (.inr (.inr (.inr (.inr (.inr ⟨w, rfl, h⟩))))))

/-- A step is the block's own step when no input is left, and the first input's act otherwise. -/
theorem step_cases {s s' : State} (h : step s = .next s') :
    (s.inputs = [] ∧ blockStep s = .next s') ∨
    (∃ e rest, s.inputs = e :: rest ∧ takeInput e { s with inputs := rest } = .next s') := by
  unfold step nextAct at h
  split at h
  · exact .inl ⟨‹_›, h⟩
  · exact .inr ⟨_, _, ‹_›, h⟩

end Sys2Proof.Machine
end

