-- ==== Sys2Proof/Laws/Effect.lean ====
section
/-! SUPPORT. What a step can do to the block, said once, and the encoder's words as numbers. -/

namespace Sys2Proof.Machine

theorem encodeCommand_write (p : Byte) : encodeCommand .write p = BitVec.ofNat 16 (0x1100 + p.toNat) := by
  revert p
  decide

theorem encodeCommand_shutdown (p : Byte) : encodeCommand .shutdown p = BitVec.ofNat 16 (0x2100 + p.toNat) := by
  revert p
  decide

/-- The device's reading of an encoded command (40_command_encoder R108). -/
theorem decodeCmd_encodeCommand (opc : Opcode) (p : Byte) :
    decodeCmd (encodeCommand opc p) =
      match opc with
      | .write => .cmdWritePot0 0 0 0 p
      | .shutdown => .cmdShutdownPot0 0 0 0 p := by
  cases opc <;> revert p <;> decide

/-- COMMIT: it reads a latch field that holds `⊥`, or completes a SHUTDOWN, or completes a write. -/
theorem commit_cases (s : State) :
    commit s = raiseFault .undefRead s ∨
    (s.block.curOpc = some .shutdown ∧ commit s = done .ok s) ∨
    (∃ p, s.block.curOpc = some .write ∧ s.block.curPayload = some p ∧
      commit s = done .ok { s with block := { s.block with wiper := some p } }) := by
  cases h : s.block.curOpc with
  | none => exact .inl (commit_undef (.inl h))
  | some o =>
    cases o with
    | write =>
      cases hp : s.block.curPayload with
      | none => exact .inl (commit_undef (.inr ⟨h, hp⟩))
      | some p => exact .inr (.inr ⟨p, rfl, rfl, commit_write h hp⟩)
    | shutdown => exact .inr (.inl ⟨rfl, commit_shutdown h⟩)

/-- A failed poll as the block sees it: one more counted, or the frame released and the fault recorded. -/
theorem failedPoll_block (n : Nat) (s : State) :
    (failedPoll n s).block = { s.block with pollCount := s.block.pollCount + 1 } ∨
    (failedPoll n s).block =
      { s.block with
        csN := some 1#1
        trace := s.block.trace ++ [.cs 1#1]
        faults := s.block.faults.insert .xportTimeout
        phase := .faulted } := by
  rcases failedPoll_cases n s with ⟨_, e⟩ | ⟨_, e⟩ <;> rw [e]
  · exact .inl rfl
  · right
    simp [raiseFault, driveCs, emit]

/-- Everything a step can do to the block. -/
inductive BlockEffect (s : State) : Block → Prop where
  | same : BlockEffect s s.block
  | reset (rest : List Input) : s.inputs = .reset :: rest → BlockEffect s Block.reset
  | requestFault (r : ReqWord) (rest : List Input) (k : FaultKind) : s.inputs = .request r :: rest →
      s.block.phase ≠ .faulted → requestFault (reqOp r) s.block.phase = some k → BlockEffect s (raiseFault k s).block
  | init (arg : Byte) (rest : List Input) : s.inputs = .request (packHost opInit arg) :: rest →
      s.block.phase = .uninit → BlockEffect s (initFields arg s).block
  | accepted (r : ReqWord) (rest : List Input) (i : Instr) (t : State) : s.inputs = .request r :: rest →
      s.block.phase = .idle → decodeHost r = i → Accepted s i t → BlockEffect s t.block
  | csAssert : s.block.phase = .csAssert → BlockEffect s (csAssert s).block
  | waitTx : s.block.phase = .waitTx → s.transport.txFree = true →
      BlockEffect s { s.block with phase := .submit }
  | failedPoll (n : Nat) : s.block.phase = .waitTx ∨ s.block.phase = .waitRx → s.params.xportTimeout = some n →
      BlockEffect s (failedPoll n s).block
  | submit : s.block.phase = .submit → BlockEffect s (submit s).block
  | waitRx : s.block.phase = .waitRx → s.transport.rxAvail = true →
      BlockEffect s { s.block with phase := .csDeassert }
  | csDeassert : s.block.phase = .csDeassert → BlockEffect s (csDeassert s).block
  | drain : s.block.phase = .drain → BlockEffect s (drain s).block
  | commit : s.block.phase = .commit → BlockEffect s (commit s).block

/-- A request whose instruction is known is the word with that instruction's code and operand. -/
theorem eq_packHost_of_decodeHost {r : ReqWord} {op : OpField} {arg : Byte} (h : decodeHost r = hostInstr op arg) :
    r = packHost op arg := by
  have h1 := congrArg hostOp h
  simp only [decodeHost, hostOp_hostInstr] at h1
  have h2 : hostInstr op (reqArg r) = hostInstr op arg := by
    rw [← h1]
    rw [← h1] at h
    exact h
  have h3 : reqArg r = arg := by
    have : op = 0 ∨ op = 1 ∨ op = 2 ∨ op = 3 ∨ op = 4 ∨ op = 5 ∨ op = 6 ∨ op = 7 := by
      clear h h1 h2
      revert op
      decide
    rcases this with rfl | rfl | rfl | rfl | rfl | rfl | rfl | rfl <;> simpa [hostInstr] using h2
  rw [← packHost_fields r, h1, h3]

theorem failedPoll_inputs_block (s : State) (n : Nat) (r : List Input) :
    (failedPoll n { s with inputs := r }).block = (failedPoll n s).block := by
  rcases failedPoll_cases n s with ⟨h, e⟩ | ⟨h, e⟩ <;> rw [e]
  · simp [failedPoll, h]
  · have : ¬ s.block.pollCount + 1 < n := by omega
    simp [failedPoll, this, raiseFault, driveCs, emit]

theorem submit_inputs_block (s : State) (r : List Input) :
    (submit { s with inputs := r }).block = (submit s).block := by
  cases h : s.block.curWord with
  | none => rw [submit_none h, submit_none (by exact h)]; rfl
  | some w => rw [submit_some h, submit_some (by exact h)]

theorem commit_inputs_block (s : State) (r : List Input) :
    (commit { s with inputs := r }).block = (commit s).block := by
  unfold commit
  dsimp only
  cases h : s.block.curOpc with
  | none => rfl
  | some o =>
    cases o with
    | write => cases h : s.block.curPayload <;> rfl
    | shutdown => rfl

theorem Accepted.of_inputs {s : State} {r : List Input} {i : Instr} {t : State}
    (h : Accepted { s with inputs := r } i t) : ∃ t', Accepted s i t' ∧ t'.block = t.block := by
  cases h with
  | write => exact ⟨_, .write _, rfl⟩
  | shutdown => exact ⟨_, .shutdown _, rfl⟩
  | incresUndef _ h => exact ⟨_, .incresUndef _ h, rfl⟩
  | incresReject _ _ h h' => exact ⟨_, .incresReject _ _ h h', rfl⟩
  | incres _ _ h h' => exact ⟨_, .incres _ _ h h', rfl⟩
  | decresUndef _ h => exact ⟨_, .decresUndef _ h, rfl⟩
  | decresReject _ _ h h' => exact ⟨_, .decresReject _ _ h h', rfl⟩
  | decres _ _ h h' => exact ⟨_, .decres _ _ h h', rfl⟩
  | getresUndef _ h => exact ⟨_, .getresUndef _ h, rfl⟩
  | getres _ _ h => exact ⟨_, .getres _ _ h, rfl⟩

/-- The block's own step. -/
theorem blockStep_effect {s s' : State} (e : blockStep s = .next s') : BlockEffect s s'.block := by
  rcases blockStep_cases e with ⟨hp, rfl⟩ | ⟨hp, ht, rfl⟩ | ⟨hp, _, n, hn, rfl⟩ | ⟨hp, rfl⟩ | ⟨hp, ht, rfl⟩ |
    ⟨hp, _, n, hn, rfl⟩ | ⟨hp, e⟩ | ⟨hp, rfl⟩ | ⟨hp, rfl⟩
  · exact .csAssert hp
  · exact .waitTx hp ht
  · exact .failedPoll n (.inl hp) hn
  · exact .submit hp
  · exact .waitRx hp ht
  · exact .failedPoll n (.inr hp) hn
  · rw [(closeFrame_frame e).1]
    exact .csDeassert hp
  · exact .drain hp
  · exact .commit hp

/-- A step does one of the effects above to the block. -/
theorem step_effect {s s' : State} (e : step s = .next s') : BlockEffect s s'.block := by
  rcases step_cases e with ⟨_, e⟩ | ⟨x, rest, hi, e⟩
  · exact blockStep_effect e
  rcases takeInput_cases e with ⟨r, rfl, e2⟩ | ⟨rfl, e2⟩ | ⟨b, rfl, rfl⟩ | ⟨w, rfl, ho, rfl⟩ | ⟨rfl, rfl⟩ |
    ⟨rfl, rfl⟩ | ⟨rfl, rfl⟩ | ⟨w, rfl, e2⟩
  · clear e
    rcases exec_host_cases (decodeHost_format r) { s with inputs := rest } with
      ⟨_, h1⟩ | ⟨hp, k, hk, h1⟩ | ⟨hp, arg, h2, h1⟩ | ⟨hp, t, ha, h1⟩ <;> rw [e2] at h1 <;> cases h1
    · exact .same
    · exact .requestFault r rest k hi hp (by simpa [decodeHost] using hk)
    · obtain rfl := eq_packHost_of_decodeHost (op := opInit) (arg := arg) h2
      have h := BlockEffect.init arg rest hi hp
      simp only [initFields_eq] at *
      exact h
    · obtain ⟨t', h1, h2⟩ := ha.of_inputs
      exact h2 ▸ .accepted r rest _ t' hi hp rfl h1
  · rcases blockStep_cases e2 with ⟨hp, rfl⟩ | ⟨hp, ht, rfl⟩ | ⟨hp, _, n, hn, rfl⟩ | ⟨hp, rfl⟩ | ⟨hp, ht, rfl⟩ |
      ⟨hp, _, n, hn, rfl⟩ | ⟨hp, e⟩ | ⟨hp, rfl⟩ | ⟨hp, rfl⟩
    · exact .csAssert hp
    · exact .waitTx hp ht
    · rw [failedPoll_inputs_block]
      exact .failedPoll n (.inl hp) hn
    · rw [submit_inputs_block]
      exact .submit hp
    · exact .waitRx hp ht
    · rw [failedPoll_inputs_block]
      exact .failedPoll n (.inr hp) hn
    · rw [(closeFrame_frame e).1]
      exact .csDeassert hp
    · exact .drain hp
    · rw [commit_inputs_block]
      exact .commit hp
  · exact .same
  · exact .same
  · rw [resetBlock_block]
    exact .reset rest hi
  · exact .same
  · exact .same
  · rw [(deviceReads_frame e2).1]
    exact .same

end Sys2Proof.Machine
end

