-- ==== Sys2Proof/Laws/PerInstr.lean ====
section
/-! SUPPORT. Per instruction: its encoded word lies in its own row of the opcode map, `w & mask = match`
(30_encoding R87). -/

namespace Sys2Proof.Laws

/-- The word of an instruction selects the instruction's row. -/
def RowMatch.Statement (i : Instr) : Prop := encode i &&& rowMask i = rowMatch i

theorem host_and (op : OpField) (arg : Byte) : (packHost op arg).toNat &&& 0x700 = (packHost op 0).toNat := by
  have := congrArg BitVec.toNat (packHost_and_op op arg)
  rwa [BitVec.toNat_and] at this

theorem cmd_and_c (x1 c x0 : BitVec 2) (p1 p0 : Bit) (d : Byte) :
    (packCmd x1 c x0 p1 p0 d).toNat &&& 0x3000 = (packCmd 0 c 0 0 0 0).toNat := by
  have := congrArg BitVec.toNat (packCmd_and_c x1 c x0 p1 p0 d)
  rwa [BitVec.toNat_and] at this

theorem cmd_and_c_p0 (x1 c x0 : BitVec 2) (p1 p0 : Bit) (d : Byte) :
    (packCmd x1 c x0 p1 p0 d).toNat &&& 0x3100 = (packCmd 0 c 0 0 p0 0).toNat := by
  have := congrArg BitVec.toNat (packCmd_and_c_p0 x1 c x0 p1 p0 d)
  rwa [BitVec.toNat_and] at this

theorem RowMatch.reserved000 (arg : Byte) : RowMatch.Statement (.reserved000 arg) := (host_and _ _).trans rfl
theorem RowMatch.init (arg : Byte) : RowMatch.Statement (.init arg) := (host_and _ _).trans rfl
theorem RowMatch.write (tap : Byte) : RowMatch.Statement (.write tap) := (host_and _ _).trans rfl
theorem RowMatch.shutdown (payload : Byte) : RowMatch.Statement (.shutdown payload) :=
  (host_and _ _).trans rfl
theorem RowMatch.incres (delta : Byte) : RowMatch.Statement (.incres delta) := (host_and _ _).trans rfl
theorem RowMatch.decres (delta : Byte) : RowMatch.Statement (.decres delta) := (host_and _ _).trans rfl
theorem RowMatch.getres (arg : Byte) : RowMatch.Statement (.getres arg) := (host_and _ _).trans rfl
theorem RowMatch.reserved111 (arg : Byte) : RowMatch.Statement (.reserved111 arg) := (host_and _ _).trans rfl
theorem RowMatch.cmdNop00 (x1 x0 : BitVec 2) (p1 p0 : Bit) (d : Byte) :
    RowMatch.Statement (.cmdNop00 x1 x0 p1 p0 d) := (cmd_and_c _ _ _ _ _ _).trans rfl
theorem RowMatch.cmdWritePot0 (x1 x0 : BitVec 2) (p1 : Bit) (d : Byte) :
    RowMatch.Statement (.cmdWritePot0 x1 x0 p1 d) := (cmd_and_c_p0 _ _ _ _ _ _).trans rfl
theorem RowMatch.cmdWriteNopot (x1 x0 : BitVec 2) (p1 : Bit) (d : Byte) :
    RowMatch.Statement (.cmdWriteNopot x1 x0 p1 d) := (cmd_and_c_p0 _ _ _ _ _ _).trans rfl
theorem RowMatch.cmdShutdownPot0 (x1 x0 : BitVec 2) (p1 : Bit) (d : Byte) :
    RowMatch.Statement (.cmdShutdownPot0 x1 x0 p1 d) := (cmd_and_c_p0 _ _ _ _ _ _).trans rfl
theorem RowMatch.cmdShutdownNopot (x1 x0 : BitVec 2) (p1 : Bit) (d : Byte) :
    RowMatch.Statement (.cmdShutdownNopot x1 x0 p1 d) := (cmd_and_c_p0 _ _ _ _ _ _).trans rfl
theorem RowMatch.cmdNop11 (x1 x0 : BitVec 2) (p1 p0 : Bit) (d : Byte) :
    RowMatch.Statement (.cmdNop11 x1 x0 p1 p0 d) := (cmd_and_c _ _ _ _ _ _).trans rfl

end Sys2Proof.Laws
end

