-- ==== Sys2Proof/Laws/Run.lean ====
section
/-! SUPPORT. Runs of several steps: peeling a step off at the front or adding one at the end, and what a step does
with each kind of input. -/

namespace Sys2Proof.Machine

open Sys2Proof.Safety

@[simp] theorem run_zero (s : State) : runSteps 0 s = .next s := rfl

theorem run_succ {s s' : State} (k : Nat) (h : step s = .next s') : runSteps (k + 1) s = runSteps k s' := by
  simp [runSteps, h]

/-- A longer run first takes a step. -/
theorem run_succ_cases {k : Nat} {s s' : State} (h : runSteps (k + 1) s = .next s') :
    ∃ t, step s = .next t ∧ runSteps k t = .next s' := by
  cases hs : step s with
  | next t => exact ⟨t, rfl, by rw [run_succ k hs] at h; exact h⟩
  | fault r => simp [runSteps, hs] at h
  | refused r => simp [runSteps, hs] at h

/-- A run and one step after it. -/
theorem run_snoc {k : Nat} {s s' s'' : State} (h : runSteps k s = .next s') (h' : step s' = .next s'') :
    runSteps (k + 1) s = .next s'' := by
  induction k generalizing s with
  | zero =>
    cases h
    exact run_succ 0 h'
  | succ k ih =>
    obtain ⟨t, ht, hk⟩ := run_succ_cases h
    rw [run_succ _ ht]
    exact ih hk

/-- A property every step keeps holds after every run. -/
theorem run_keeps {P : State → Prop} (hP : ∀ s s', P s → step s = .next s' → P s') {k : Nat} {s s' : State}
    (hs : P s) (h : runSteps k s = .next s') : P s' := by
  induction k generalizing s with
  | zero =>
    cases h
    exact hs
  | succ k ih =>
    obtain ⟨t, ht, hk⟩ := run_succ_cases h
    exact ih (hP s t hs ht) hk

theorem step_request {s : State} {r : ReqWord} {rest : List Input} (h : s.inputs = .request r :: rest) :
    step s = exec (decodeHost r) { s with inputs := rest } := by
  simp [step, nextAct, h, takeInput, takeRequest]

theorem step_block {s : State} {rest : List Input} (h : s.inputs = .block :: rest) :
    step s = blockStep { s with inputs := rest } := by
  simp [step, nextAct, h, takeInput]

theorem step_nil {s : State} (h : s.inputs = []) : step s = blockStep s := by
  simp [step, nextAct, h]

theorem step_txFree {s : State} {b : Bool} {rest : List Input} (h : s.inputs = .txFree b :: rest) :
    step s = .next { s with transport := { s.transport with txFree := b }, inputs := rest } := by
  simp [step, nextAct, h, takeInput]

theorem step_receive {s : State} {w : CmdWord} {rest : List Input} (h : s.inputs = .receive w :: rest)
    (ho : s.transport.rxOwed = true) :
    step s = .next
      { s with
        transport := { s.transport with rxAvail := true, rxWord := w, rxOwed := false }
        inputs := rest } := by
  simp [step, nextAct, h, takeInput, receiveWord, ho]

theorem step_reset {s : State} {rest : List Input} (h : s.inputs = .reset :: rest) :
    step s = .next (resetBlock { s with inputs := rest }) := by
  simp [step, nextAct, h, takeInput]

theorem step_busError {s : State} {rest : List Input} (h : s.inputs = .busError :: rest) :
    step s = .next (busError { s with inputs := rest }) := by
  simp [step, nextAct, h, takeInput]

end Sys2Proof.Machine
end

