-- ==== Sys2Proof/Tests/Slice0.lean ====
section
/-! SUPPORT. Tests: what the well-formedness checks refuse, one word of every row written out from its encoding, one
step of each instruction with the results of 95_test_vectors, and a state that meets the hypotheses of each
statement. -/

namespace Sys2Proof.Tests

open Sys2Proof.Machine Sys2Proof.Safety

/-! ### Well-formedness (30_encoding R76, R77) -/

theorem test_write_needs_operand : AsmLine.wellFormed ⟨.write, none⟩ = false := by decide
theorem test_init_takes_no_operand : AsmLine.wellFormed ⟨.init, some 0⟩ = false := by decide
theorem test_operand_above_255 : AsmLine.wellFormed ⟨.incres, some 256⟩ = false := by decide
theorem test_operand_255 : AsmLine.wellFormed ⟨.incres, some 255⟩ = true := by decide
theorem test_ill_formed_line_spells_nothing : assemble ⟨.getres, some 1⟩ = none := by decide
theorem test_hostop_too_wide : decode .hostop 0x800 = .error .hostopTooWide := by decide
theorem test_cmd16_too_wide : decode .cmd16 0x10000 = .error .cmd16TooWide := by decide

/-! ### Decoding, bit by bit: HOSTOP `op` 10:8, `arg` 7:0 (V-HOP-1 to 12) -/

theorem test_decode_reserved000 : decode .hostop 0b00000000000 = .ok (.reserved000 0) := by decide
theorem test_decode_init : decode .hostop 0b00111111111 = .ok (.init 255) := by decide
theorem test_decode_write : decode .hostop 0b01011000000 = .ok (.write 192) := by decide
theorem test_decode_shutdown : decode .hostop 0b01101011010 = .ok (.shutdown 90) := by decide
theorem test_decode_incres : decode .hostop 0b10000001010 = .ok (.incres 10) := by decide
theorem test_decode_decres : decode .hostop 0b10100010100 = .ok (.decres 20) := by decide
theorem test_decode_getres : decode .hostop 0b11010101011 = .ok (.getres 171) := by decide
theorem test_decode_reserved111 : decode .hostop 0b11111111111 = .ok (.reserved111 255) := by decide

/-! ### Decoding, bit by bit: CMD16 `X1` 15:14, `C` 13:12, `X0` 11:10, `P1` 9, `P0` 8, `D` 7:0 (V-CMD-1 to 8) -/

theorem test_decode_nop00 : decode .cmd16 0b1000011000000001 = .ok (.cmdNop00 2 1 1 0 1) := by decide
theorem test_decode_write_pot0 : decode .cmd16 0b1101000111000000 = .ok (.cmdWritePot0 3 0 0 192) := by decide
theorem test_decode_write_nopot : decode .cmd16 0b0001000011000000 = .ok (.cmdWriteNopot 0 0 0 192) := by decide
theorem test_decode_shutdown_pot0 : decode .cmd16 0b0010101101011010 = .ok (.cmdShutdownPot0 0 2 1 90) := by decide
theorem test_decode_shutdown_nopot : decode .cmd16 0b0010000000000000 = .ok (.cmdShutdownNopot 0 0 0 0) := by decide
theorem test_decode_nop11 : decode .cmd16 0b0011111111111111 = .ok (.cmdNop11 0 3 1 1 255) := by decide

/-! ### A state in each phase -/

/-- Parameters with `W = 60` and the given timeout. -/
def prm (t : Option Nat) : Params := ⟨10000, 60, 128#8, ⟨0, Nat.succ_pos _⟩, 1000000, t⟩

/-- The events after INIT of a `WRITE 0x40` that has come to the given phase. -/
def eventsTo : Phase → List Event
  | .uninit => []
  | .idle => []
  | .csAssert => [.req 2#3 0x40#8]
  | .waitTx => [.req 2#3 0x40#8, .cs 0#1]
  | .submit => [.req 2#3 0x40#8, .cs 0#1]
  | .waitRx => [.req 2#3 0x40#8, .cs 0#1, .tx 0x1140#16]
  | .csDeassert => [.req 2#3 0x40#8, .cs 0#1, .tx 0x1140#16]
  | .drain => [.req 2#3 0x40#8, .cs 0#1, .tx 0x1140#16, .cs 1#1]
  | .commit => [.req 2#3 0x40#8, .cs 0#1, .tx 0x1140#16, .cs 1#1, .rxDrain]
  | .faulted => []

/-- The block in a phase after UNINIT, with the shadow at `p`. -/
def blockIn (ph : Phase) (p : Byte) (t : Option Nat) : Block where
  wiper := some p
  phase := ph
  curOpc := some .write
  curPayload := some 0x40#8
  curWord := some 0x1140#16
  csN := if ph = .faulted then some 1#1 else csLevel ph
  xportEn := some 1#1
  xportCfg := some (initCfg (prm t))
  status := some .ok
  resOhms := none
  pollCount := 0
  faults := if ph = .faulted then FaultSet.empty.insert .doubleInit else FaultSet.empty
  trace := [.req 1#3 0#8, .xen 0#1, .cs 1#1, .xcfg (initCfg (prm t)), .xen 1#1, .done .ok] ++ eventsTo ph

/-- A small state in the given phase: freshly reset, or with a `WRITE 0x40` in flight and the shadow at `p`. -/
def inPhase (ph : Phase) (p : Byte) (t : Option Nat) (acts : List Input) : State where
  params := prm t
  block := if ph = .uninit then Block.reset else blockIn ph p t
  transport := ⟨false, ph = .csDeassert ∨ ph = .drain, 0#16, ph = .waitRx⟩
  device := ⟨128#8, false, if ph = .waitRx ∨ ph = .csDeassert then .carries 0x1140#16 else .empty⟩
  inputs := acts
  freeIndex := 0

/-- A check of the next state; false for a fault or a refusal. -/
def next (r : Result) (f : State → Bool) : Bool :=
  match r with
  | .next t => f t
  | .fault _ => false
  | .refused _ => false

/-! ### One step of each instruction, with the results of 95_test_vectors -/

/-- V-FLT-5. -/
theorem test_reserved000 : next (step (State.reset.withFetchWord 11 0x000)) (fun t =>
    t.block.phase = .faulted ∧ t.block.faults = FaultSet.empty.insert .illegalOp ∧ t.block.trace = []) = true := by
  decide

/-- V-TXN-1. -/
theorem test_init : next (step (inPhase .uninit 0 none [.request 0x100#11])) (fun t =>
    t.block.phase = .idle ∧ t.block.wiper = some 128#8 ∧ t.block.csN = some 1#1 ∧ t.block.status = some .ok) = true := by
  decide

/-- V-FLT-3. -/
theorem test_init_twice : next (step (inPhase .idle 128 none [.request 0x1FF#11])) (fun t =>
    t.block.faults = FaultSet.empty.insert .doubleInit ∧ t.block.wiper = some 128#8) = true := by decide

/-- V-TXN-2. -/
theorem test_write : next (step (inPhase .idle 128 none [.request 0x2C0#11])) (fun t =>
    t.block.phase = .csAssert ∧ t.block.curWord = some 0x11C0#16 ∧ t.block.wiper = some 128#8) = true := by decide

/-- V-FLT-1. -/
theorem test_write_before_init : next (step (State.reset.withFetchWord 11 0x2C0)) (fun t =>
    t.block.faults = FaultSet.empty.insert .notInit ∧ t.block.trace = [] ∧ t.block.wiper = none) = true := by decide

/-- V-TXN-4, V-ENC-9. -/
theorem test_shutdown : next (step (inPhase .idle 182 none [.request 0x35A#11])) (fun t =>
    t.block.curWord = some 0x215A#16 ∧ t.block.wiper = some 182#8) = true := by decide

/-- V-BND-1. -/
theorem test_incres : next (step (inPhase .idle 192 none [.request 0x40A#11])) (fun t =>
    t.block.curWord = some 0x11B6#16 ∧ t.block.phase = .csAssert) = true := by decide

/-- V-BND-3. -/
theorem test_incres_rejected : next (step (inPhase .idle 5 none [.request 0x40A#11])) (fun t =>
    t.block.status = some .rejected ∧ t.block.phase = .idle ∧ t.block.wiper = some 5#8) = true := by decide

/-- V-BND-7. -/
theorem test_decres : next (step (inPhase .idle 182 none [.request 0x514#11])) (fun t =>
    t.block.curWord = some 0x11CA#16 ∧ t.block.phase = .csAssert) = true := by decide

/-- V-BND-11: an 8-bit sum would wrongly pass. -/
theorem test_decres_exact_sum : next (step (inPhase .idle 200 none [.request 0x564#11])) (fun t =>
    t.block.status = some .rejected ∧ t.block.wiper = some 200#8) = true := by decide

/-- V-TXN-5 and V-RES-8, with `W = 60`. -/
theorem test_getres : next (step (inPhase .idle 192 none [.request 0x600#11])) (fun t =>
    t.block.resOhms = some 7560#32 ∧ t.block.status = some .ok) = true := by decide

/-- V-RES-9, with `W = 60`: a 16-bit intermediate would give 292. -/
theorem test_getres_width : next (step (inPhase .idle 255 none [.request 0x6AB#11])) (fun t =>
    t.block.resOhms = some 10020#32) = true := by decide

/-- V-FLT-6: priority over BUSY. -/
theorem test_reserved111 : next (step (inPhase .waitTx 128 none [.request 0x7FF#11])) (fun t =>
    t.block.faults = FaultSet.empty.insert .illegalOp ∧ t.block.csN = some 0#1) = true := by decide

/-- V-CMD-3. -/
theorem test_cmd_nop00 : exec (.cmdNop00 0 0 0 0 0) (inPhase .idle 128 none []) = .next (inPhase .idle 128 none []) := rfl

/-- V-CMD-5, through the opcode table's numbering. -/
theorem test_cmd_write_pot0 : next (step (State.reset.withFetchWord 16 0xD1C0)) (fun t =>
    t.device.wiper = 192#8) = true := by decide

/-- V-CMD-7. -/
theorem test_cmd_write_nopot : step (State.reset.withFetchWord 16 0x10C0) = .refused .writeNoPot := rfl

/-- V-CMD-2. -/
theorem test_cmd_shutdown_pot0 : next (step (State.reset.withFetchWord 16 0x2100)) (fun t =>
    t.device.shutdown) = true := by decide

/-- V-CMD-8. -/
theorem test_cmd_shutdown_nopot : step (State.reset.withFetchWord 16 0x2000) = .refused .shutdownNoPot := rfl

/-- V-CMD-4. -/
theorem test_cmd_nop11 : exec (.cmdNop11 0 3 1 1 255) (inPhase .idle 128 none []) = .next (inPhase .idle 128 none []) := rfl

/-! ### Steps of the phases -/

/-- V-TXN-7: the hang. -/
theorem test_hang : step (inPhase .waitTx 128 none []) = .fault .held := rfl

/-- V-FLT-4. -/
theorem test_busy : next (step (inPhase .waitRx 128 none [.request 0x600#11])) (fun t =>
    t.block.faults = FaultSet.empty.insert .busy ∧ t.block.csN = some 0#1 ∧ t.block.trace.length = 9) = true := by
  decide

/-- V-FLT-9: the third poll. -/
theorem test_third_poll :
    next (blockStep { inPhase .waitTx 128 (some 3) [] with
      block := { blockIn .waitTx 128 (some 3) with pollCount := 2 } }) (fun t =>
    t.block.faults = FaultSet.empty.insert .xportTimeout ∧ t.block.csN = some 1#1 ∧
      t.block.wiper = some 128#8) = true := by decide

/-- V-TXN-9: the device has the tap at the closing edge, the shadow not yet. -/
theorem test_closing_edge : next (step (inPhase .csDeassert 128 none [])) (fun t =>
    t.device.wiper = 0x40#8 ∧ t.block.wiper = some 128#8 ∧ t.block.csN = some 1#1) = true := by decide

/-- R210: a bus error in the frame shows nowhere in the block. -/
theorem test_bus_error : next (step (inPhase .waitRx 128 none [.busError])) (fun t =>
    t.device.frame = .interrupted ∧ t.block = blockIn .waitRx 128 none) = true := by decide

/-- R231: a reset in DRAIN leaves the device's wiper, the frame being closed. -/
theorem test_reset_in_drain : next (step (inPhase .drain 0 none [.reset])) (fun t =>
    t.device.wiper = 128#8 ∧ t.block = Block.reset) = true := by decide

/-- V-TXN-9: COMMIT. -/
theorem test_commit : next (step (inPhase .commit 128 none [])) (fun t =>
    t.block.wiper = some 0x40#8 ∧ t.block.phase = .idle) = true := by decide

/-! ### The invariants hold in a state of each phase -/

theorem inPhase_inv (ph : Phase) (p : Byte) (t : Option Nat) (acts : List Input) : Inv (inPhase ph p t acts) := by
  have hp : (prm t).wf := ⟨by show 0 < 10000; decide, by show 10000 * 255 + 60 < 2 ^ 32; decide,
    by show 10000 + 60 < 2 ^ 32; decide, by show 0 < 1000000; decide⟩
  cases ph <;> refine ⟨hp, ?_, ?_, ?_, ?_, ?_, ?_, ?_, ?_, ?_, ?_⟩ <;>
    first
    | exact fun _ => ⟨.write, 0x40#8, rfl, rfl, rfl⟩
    | simp [inPhase, blockIn, Running, Phase.isTransaction, csLevel, ReceiveOk, FrameOk, Block.reset, FaultSet.empty,
        FaultSet.insert]

theorem inPhase_history (ph : Phase) (t : Option Nat) (acts : List Input) : HistoryOk (inPhase ph 128 t acts) := by
  cases ph
  · exact ⟨.fresh, rfl, rfl⟩
  · exact ⟨.ready 128#8, rfl, 128#8, rfl, rfl⟩
  · exact ⟨.asked 128#8 2#3 0x40#8, rfl, _, _, _, 0x40#8, 0x1140#16, rfl, rfl, rfl, rfl, .inr ⟨rfl, rfl⟩⟩
  · exact ⟨.framed 128#8 2#3 0x40#8, rfl, _, _, _, 0x40#8, 0x1140#16, rfl, rfl, rfl, rfl, .inr ⟨rfl, rfl⟩⟩
  · exact ⟨.framed 128#8 2#3 0x40#8, rfl, _, _, _, 0x40#8, 0x1140#16, rfl, rfl, rfl, rfl, .inr ⟨rfl, rfl⟩⟩
  · exact ⟨.sent 128#8 0x40#8, rfl, _, _, rfl, rfl, .inr ⟨rfl, rfl⟩⟩
  · exact ⟨.sent 128#8 0x40#8, rfl, _, _, rfl, rfl, .inr ⟨rfl, rfl⟩⟩
  · exact ⟨.closed 128#8 0x40#8, rfl, _, _, rfl, rfl, .inr ⟨rfl, rfl⟩⟩
  · exact ⟨.drained 128#8 0x40#8, rfl, _, _, rfl, rfl, .inr ⟨rfl, rfl⟩⟩
  · exact ⟨.ready 128#8, rfl, trivial⟩

/-! ### The hypotheses of the statements are met: `witness_<Name>` for each one that has hypotheses, each clause at a
boundary of its range -/

theorem witness_DecodeOfEncodeIsTheInstruction : (Instr.cmdNop11 3 3 1 1 255).wellFormed = true := by decide

theorem witness_EncodeOfDecodeIsTheWord :
    decode .hostop 0x7FF = .ok (.reserved111 255) ∧ decode .cmd16 0xFFFF = .ok (.cmdNop11 3 3 1 1 255) := by decide

theorem witness_OpcodeMapRowsAreDisjointAndComplete :
    decode .hostop 0x7FF = .ok (.reserved111 255) ∧ (Instr.reserved000 0).format = .hostop ∧
      decode .cmd16 0xFFFF = .ok (.cmdNop11 3 3 1 1 255) ∧ (Instr.cmdNop00 0 0 0 0 0).format = .cmd16 ∧
      2047 < 2 ^ 11 ∧ 65535 < 2 ^ 16 := by decide

theorem witness_StepRunsTheDecodedInstruction :
    (inPhase .idle 0 none [.request 0x7FF#11]).inputs = .request 0x7FF#11 :: [] ∧
      decode .hostop (0x7FF#11).toNat = .ok (.reserved111 255) ∧
      (inPhase .idle 0 none [.frame 0xFFFF#16]).inputs = .frame 0xFFFF#16 :: [] ∧
      decode .cmd16 (0xFFFF#16).toNat = .ok (.cmdNop11 3 3 1 1 255) ∧
      decodeTableWord 11 0x7FF = some (.reserved111 255) ∧ decodeTableWord 16 0xFFFF = some (.cmdNop11 3 3 1 1 255) :=
  ⟨rfl, by decide, rfl, by decide, by decide, by decide⟩

theorem witness_ReservedCodesRaiseIllegalOp :
    (inPhase .uninit 0 none []).block.phase ≠ .faulted ∧ (inPhase .commit 0 none []).block.phase ≠ .faulted := by decide

theorem witness_OperationsBeforeInitRaiseNotInit : (inPhase .uninit 0 none []).block.phase = .uninit := rfl

theorem witness_SecondInitRaisesDoubleInit : (inPhase .idle 0 none []).block.phase = .idle := rfl

theorem witness_RequestsInATransactionRaiseBusy :
    (inPhase .csAssert 0 none []).block.phase.isTransaction = true ∧
      (inPhase .commit 0 none []).block.phase.isTransaction = true := by decide

theorem witness_RequestFaultPriority :
    ((inPhase .idle 0 none []).block.phase = .idle → (inPhase .idle 0 none []).block.wiper ≠ none) ∧
      ((inPhase .uninit 0 none []).block.phase = .idle → (inPhase .uninit 0 none []).block.wiper ≠ none) := by decide

theorem witness_OnlyResetLeavesFaulted :
    let s := inPhase .faulted 0 none [.request 0x2C0#11]
    s.block.phase = .faulted ∧ (∃ s', step s = .next s') ∧ ∀ rest, s.inputs ≠ .reset :: rest :=
  ⟨rfl, ⟨_, rfl⟩, by simp [inPhase]⟩

theorem witness_FaultBitsAreSticky :
    let s := inPhase .faulted 0 none [.request 0x2C0#11]
    let r := inPhase .faulted 0 none [.reset]
    (∃ s', step s = .next s') ∧ (∀ rest, s.inputs ≠ .reset :: rest) ∧ s.block.faults.has .doubleInit = true ∧
      (∃ s', step r = .next s') ∧ r.inputs = .reset :: [] :=
  ⟨⟨_, rfl⟩, by simp [inPhase], rfl, ⟨_, rfl⟩, rfl⟩

theorem witness_ResetSetsEveryFieldOfTheBlock : (inPhase .waitRx 0 none [.reset]).inputs = .reset :: [] := rfl

theorem witness_ResetKeepsTransportAndIdleDevice :
    let s := inPhase .csAssert 0 none [.reset]
    let t := inPhase .drain 0 none [.reset]
    (s.inputs = .reset :: [] ∧ s.block.csN ≠ some 0#1) ∧ (t.inputs = .reset :: [] ∧ t.block.csN ≠ some 0#1) := by decide

theorem witness_InitInitializesTheBlock : State.reset.block.phase = .uninit := rfl

theorem witness_InitAndGetresIgnoreTheirOperand :
    (∃ s', exec (.init 0) (inPhase .uninit 0 none []) = .next s') ∧
      (∃ s', exec (.getres 255) (inPhase .idle 0 none []) = .next s') := ⟨⟨_, rfl⟩, ⟨_, rfl⟩⟩

theorem witness_WriteStartsItsTransaction : (inPhase .idle 255 none []).block.phase = .idle := rfl

theorem witness_ShutdownStartsItsTransaction : (inPhase .idle 0 none []).block.phase = .idle := rfl

/-- `delta = p` is accepted and `delta = p + 1` rejected. -/
theorem witness_IncresLowersTheTapOrRejects :
    let s := inPhase .idle 10 none []
    s.block.phase = .idle ∧ s.block.wiper = some 10#8 ∧ ¬ (10#8).toNat > (10#8).toNat ∧
      (11#8).toNat > (10#8).toNat := by decide

/-- The sum 255 is accepted and 256 rejected. -/
theorem witness_DecresRaisesTheTapOrRejects :
    let s := inPhase .idle 250 none []
    s.block.phase = .idle ∧ s.block.wiper = some 250#8 ∧ ¬ (250#8).toNat + (5#8).toNat > 255 ∧
      (250#8).toNat + (6#8).toNat > 255 := by decide

theorem witness_GetresReadsTheResistance :
    (inPhase .idle 0 none []).block.phase = .idle ∧ (inPhase .idle 0 none []).block.wiper = some 0#8 ∧
      (inPhase .idle 1 none []).block.wiper = some 1#8 ∧ (inPhase .idle 0 none []).params.wf :=
  ⟨rfl, rfl, rfl, (inPhase_inv .idle 0 none []).params⟩

theorem witness_ResistanceIsMonotoneFromTapOne :
    1 ≤ (1#8).toNat ∧ (1#8).toNat < (2#8).toNat ∧ (254#8).toNat < (255#8).toNat ∧ 256 ≤ 256 ∧ 1 ≤ 1 := by decide

/-- The largest `W` at the default ladder. -/
theorem witness_ResistanceFitsThirtyTwoBits : { prm none with wiperOhms := 4292417295 }.wf := by
  refine ⟨?_, ?_, ?_, ?_⟩ <;> simp [prm]

theorem witness_CsAssertOpensTheFrame : (inPhase .csAssert 0 none []).block.phase = .csAssert := rfl

theorem witness_WaitPhasesAwaitTheTransport :
    let tx := inPhase .waitTx 0 none []
    let rx := inPhase .waitRx 0 none []
    tx.block.phase = .waitTx ∧ { tx.transport with txFree := true }.txFree = true ∧ tx.transport.txFree = false ∧
      rx.block.phase = .waitRx ∧ { rx.transport with rxAvail := true }.rxAvail = true ∧
      rx.transport.rxAvail = false ∧ tx.params.xportTimeout = none ∧ rx.params.xportTimeout = none :=
  ⟨rfl, rfl, rfl, rfl, rfl, rfl, rfl, rfl⟩

theorem witness_SubmitSendsTheLatchedWord :
    let s := inPhase .submit 0 none []
    s.block.phase = .submit ∧ s.block.curWord = some 0x1140#16 ∧ s.device.frame = .empty := by decide

theorem witness_CsDeassertClosesTheFrameAtTheDevice :
    let s := inPhase .csDeassert 0 none []
    let d := { s.device with frame := .carries (encodeCommand .shutdown 255#8) }
    s.block.phase = .csDeassert ∧ s.device.frame = .carries (encodeCommand .write 0x40#8) ∧
      d.frame = .carries (encodeCommand .shutdown 255#8) := by decide

theorem witness_DrainDropsTheReceivedWord : (inPhase .drain 0 none []).block.phase = .drain := rfl

theorem witness_CommitWritesTheWiperForWriteOnly :
    let s := inPhase .commit 0 none []
    let b := { s.block with curOpc := some Opcode.shutdown }
    s.block.phase = .commit ∧ s.block.curOpc = some .write ∧ s.block.curPayload = some 0x40#8 ∧
      b.phase = .commit ∧ b.curOpc = some .shutdown ∧ b.curPayload = some 0x40#8 := by decide

theorem witness_PhasesRunInTheFixedOrder :
    let s := inPhase .csAssert 0 none []
    let t := inPhase .waitRx 0 (some 0) []
    s.block.phase.isTransaction = true ∧ (∃ s', blockStep s = .next s') ∧
      t.block.phase.isTransaction = true ∧ (∃ t', blockStep t = .next t') :=
  ⟨rfl, ⟨_, rfl⟩, rfl, ⟨_, rfl⟩⟩

/-- With a timeout of 2 the first poll is counted; with 1 or 0 it is the last one. -/
theorem witness_FailedPollCountsOrTimesOut :
    let s := inPhase .waitTx 0 (some 2) []
    let t := inPhase .waitRx 0 (some 1) []
    let u := inPhase .waitRx 0 (some 0) []
    (s.block.phase = .waitTx ∧ s.transport.txFree = false ∧ s.block.pollCount + 1 < 2) ∧
      (t.block.phase = .waitRx ∧ t.transport.rxAvail = false ∧ 1 ≤ t.block.pollCount + 1) ∧
      (u.block.phase = .waitRx ∧ u.transport.rxAvail = false ∧ 0 ≤ u.block.pollCount + 1) := by decide

theorem witness_UnansweredWaitTimesOutAfterNPolls :
    let s := inPhase .waitTx 0 (some 3) [.block, .block, .block]
    let t := inPhase .waitRx 0 (some 0) [.block]
    (s.params.xportTimeout = some 3 ∧ s.block.phase = .waitTx ∧ s.transport.txFree = false ∧ s.block.pollCount = 0 ∧
      s.inputs = List.replicate (max 3 1) .block ++ []) ∧
      (t.params.xportTimeout = some 0 ∧ t.block.phase = .waitRx ∧ t.transport.rxAvail = false ∧
        t.block.pollCount = 0 ∧ t.inputs = List.replicate (max 0 1) .block ++ []) := by decide

theorem witness_ReceivedWordIsPairedWithATx :
    (inPhase .waitRx 0 none [.receive 0xBEEF#16]).inputs = .receive 0xBEEF#16 :: [] ∧
      (inPhase .waitRx 0 none []).transport.rxOwed = true ∧ (inPhase .idle 0 none []).transport.rxOwed = false := by
  decide

theorem witness_AnsweredWriteSetsTheTap :
    let s := inPhase .idle 0 none (answeredRequest (0x200#11 ||| (255#8).setWidth 11) 0xBEEF#16)
    let e := inPhase .idle 0 none (answeredWithBusError (0x200#11 ||| (0#8).setWidth 11) 0xBEEF#16)
    (s.block.phase = .idle ∧ s.inputs = answeredRequest (0x200#11 ||| (255#8).setWidth 11) 0xBEEF#16 ++ []) ∧
      (e.block.phase = .idle ∧ e.inputs = answeredWithBusError (0x200#11 ||| (0#8).setWidth 11) 0xBEEF#16 ++ []) := by
  decide

theorem witness_AnsweredShutdownKeepsTheTap :
    let s := inPhase .idle 0 none (answeredRequest (0x300#11 ||| (90#8).setWidth 11) 0#16)
    s.block.phase = .idle ∧ s.inputs = answeredRequest (0x300#11 ||| (90#8).setWidth 11) 0#16 ++ [] := by decide

theorem witness_BoundsLawsOfTheMoves :
    let a := inPhase .idle 255 none (answeredRequest (0x400#11 ||| (255#8).setWidth 11) 0#16)
    let b := inPhase .idle 254 none [.request (0x400#11 ||| (255#8).setWidth 11)]
    let c := inPhase .idle 0 none (answeredRequest (0x500#11 ||| (255#8).setWidth 11) 0#16)
    let d := inPhase .idle 1 none [.request (0x500#11 ||| (255#8).setWidth 11)]
    (a.block.phase = .idle ∧ a.block.wiper = some 255#8 ∧ (255#8).toNat ≤ (255#8).toNat ∧
      a.inputs = answeredRequest (0x400#11 ||| (255#8).setWidth 11) 0#16 ++ []) ∧
      (b.block.phase = .idle ∧ b.block.wiper = some 254#8 ∧ (254#8).toNat < (255#8).toNat ∧
        b.inputs = .request (0x400#11 ||| (255#8).setWidth 11) :: []) ∧
      (c.block.phase = .idle ∧ c.block.wiper = some 0#8 ∧ (0#8).toNat + (255#8).toNat ≤ 255 ∧
        c.inputs = answeredRequest (0x500#11 ||| (255#8).setWidth 11) 0#16 ++ []) ∧
      (d.block.phase = .idle ∧ d.block.wiper = some 1#8 ∧ 255 < (1#8).toNat + (255#8).toNat ∧
        d.inputs = .request (0x500#11 ||| (255#8).setWidth 11) :: []) := by decide

theorem witness_ZeroDeltaStillWrites :
    let s := inPhase .idle 0 none (answeredRequest (packHost 4#3 0#8) 0#16)
    let t := inPhase .idle 255 none (answeredRequest (packHost 5#3 0#8) 0#16)
    (s.block.phase = .idle ∧ s.block.wiper = some 0#8 ∧ s.inputs = answeredRequest (packHost 4#3 0#8) 0#16 ++ []) ∧
      (t.block.phase = .idle ∧ t.block.wiper = some 255#8 ∧
        t.inputs = answeredRequest (packHost 5#3 0#8) 0#16 ++ []) := by decide

theorem witness_TransactionUnderEverySchedule :
    let s := inPhase .csAssert 0 none [.txFree false, .block, .txFree true, .block, .block, .busError, .receive 7#16]
    Inv s ∧ s.block.phase = .csAssert ∧ s.block.curOpc = some .write ∧ s.block.curPayload = some 0x40#8 ∧
      s.inputs.all isQuiet = true ∧ ∃ s', runSteps 7 s = .next s' :=
  ⟨inPhase_inv _ _ _ _, rfl, rfl, rfl, rfl, ⟨_, rfl⟩⟩

/-- A transaction whose transport answers both waits; after eight steps the block is in IDLE and the run ends. -/
def live : State := inPhase .waitTx 0 none [.txFree true, .block, .block, .receive 7#16]

theorem live_runs_eight (k : Nat) : runSteps (k + 9) live = .fault .noRequest := rfl

/-- The wait of `t`, if it is in one, is answered now or after one step. -/
def answeredSoon (t : State) : Bool :=
  (t.block.phase ≠ .waitTx ∨ t.transport.txFree ∨ next (step t) fun u => u.transport.txFree) ∧
    (t.block.phase ≠ .waitRx ∨ t.transport.rxAvail ∨ next (step t) fun u => u.transport.rxAvail)

theorem live_answeredSoon : ∀ k < 9, next (runSteps k live) answeredSoon = true := by decide

theorem of_next {r : Result} {f : State → Bool} (h : next r f = true) : ∃ t, r = .next t ∧ f t = true := by
  cases r with
  | next t => exact ⟨t, rfl, h⟩
  | fault _ => cases h
  | refused _ => cases h

theorem runs_one {t u : State} (h : step t = .next u) : runSteps 1 t = .next u := by simp [runSteps, h]

theorem live_xportLive : XportLive live := by
  intro k t h
  by_cases hk : k < 9
  · have ha := live_answeredSoon k hk
    rw [h] at ha
    have ha := of_decide_eq_true ha
    refine ⟨fun hp => ?_, fun hp => ?_⟩
    · rcases ha.1 with h1 | h1 | h1
      · exact absurd hp h1
      · exact ⟨0, t, rfl, h1⟩
      · obtain ⟨u, hu, hf⟩ := of_next h1
        exact ⟨1, u, runs_one hu, hf⟩
    · rcases ha.2 with h1 | h1 | h1
      · exact absurd hp h1
      · exact ⟨0, t, rfl, h1⟩
      · obtain ⟨u, hu, hf⟩ := of_next h1
        exact ⟨1, u, runs_one hu, hf⟩
  · obtain ⟨j, rfl⟩ := Nat.exists_eq_add_of_le' (Nat.le_of_not_lt hk)
    rw [live_runs_eight] at h
    cases h

theorem live_keepsT2 : TransportKeepsT2 live := by
  intro k r h
  by_cases hk : k < 9
  · obtain ⟨t, ht, _⟩ := of_next (live_answeredSoon k hk)
    rw [ht] at h
    cases h
  · obtain ⟨j, rfl⟩ := Nat.exists_eq_add_of_le' (Nat.le_of_not_lt hk)
    rw [live_runs_eight] at h
    cases h

/-- Both parts: a block that has no step but is held, and a transaction under `XPORT_LIVE`. -/
theorem witness_TransactionHangsOnlyInAWait :
    Inv (inPhase .waitRx 0 none []) ∧ (inPhase .waitRx 0 none []).block.phase.isTransaction = true ∧
      Inv live ∧ live.block.phase.isTransaction = true ∧ live.params.xportTimeout = none ∧
      live.inputs.all isQuiet = true ∧ XportLive live ∧ TransportKeepsT2 live :=
  ⟨inPhase_inv _ _ _ _, rfl, inPhase_inv _ _ _ _, rfl, rfl, rfl, live_xportLive, live_keepsT2⟩

/-- V-TXN-7's hang does not satisfy `XPORT_LIVE`. -/
theorem test_hang_is_not_live : ¬ XportLive (inPhase .waitTx 0 none []) := by
  intro h
  obtain ⟨j, u, hu, hf⟩ := (h 0 _ rfl).1 rfl
  cases j with
  | zero => cases hu; cases hf
  | succ j => rw [show runSteps (j + 1) (inPhase .waitTx 0 none []) = .fault .held from rfl] at hu; cases hu

theorem witness_EveryStepKeepsTheInvariant :
    Inv (inPhase .csDeassert 0 none []) ∧ (∃ s', step (inPhase .csDeassert 0 none []) = .next s') :=
  ⟨inPhase_inv _ _ _ _, ⟨_, rfl⟩⟩

theorem witness_EveryStepKeepsTheHistoryInOrder :
    let s := inPhase .submit 128 none []
    Inv s ∧ HistoryOk s ∧ (∃ s', step s = .next s') :=
  ⟨inPhase_inv _ _ _ _, inPhase_history _ _ _, ⟨_, rfl⟩⟩

theorem witness_WiperIsWrittenByInitAndCommitOnly :
    (∃ s', step (inPhase .idle 0 none [.request 0x2C0#11]) = .next s') ∧
      (∃ s', step (inPhase .commit 0 none []) = .next s') := ⟨⟨_, rfl⟩, ⟨_, rfl⟩⟩

theorem witness_HistoryOnlyGrows :
    let s := inPhase .idle 0 none [.request 0x600#11]
    (∃ s', step s = .next s') ∧ ∀ rest, s.inputs ≠ .reset :: rest := ⟨⟨_, rfl⟩, by simp [inPhase]⟩

theorem witness_TransportConfigIsWrittenByInitOnly :
    ∃ s', step (inPhase .uninit 0 none [.request 0x100#11]) = .next s' := ⟨_, rfl⟩

theorem witness_ResultIsWrittenByGetresOnly :
    ∃ s', step (inPhase .idle 0 none [.request 0x6FF#11]) = .next s' := ⟨_, rfl⟩

theorem witness_RejectedComesFromAFailedBoundCheck :
    ∃ s', step (inPhase .idle 0 none [.request 0x401#11]) = .next s' ∧ s'.block.status = some .rejected := ⟨_, rfl, rfl⟩

theorem witness_SubmittedWordsAreCommands :
    let s := inPhase .submit 0 none []
    Inv s ∧ ∃ s', step s = .next s' ∧ .tx 0x1140#16 ∈ s'.block.trace :=
  ⟨inPhase_inv _ _ _ _, _, rfl, by decide⟩

theorem witness_ChipSelectRisesOnlyAfterTheExchange :
    let s := inPhase .csDeassert 0 none []
    let t := inPhase .waitRx 0 (some 1) []
    (Inv s ∧ s.block.csN = some 0#1 ∧ ∃ s', step s = .next s' ∧ s'.block.csN = some 1#1) ∧
      (Inv t ∧ t.block.csN = some 0#1 ∧ ∃ t', step t = .next t' ∧ t'.block.csN = some 1#1) :=
  ⟨⟨inPhase_inv _ _ _ _, rfl, _, rfl, rfl⟩, ⟨inPhase_inv _ _ _ _, rfl, _, rfl, rfl⟩⟩

theorem witness_ReceivedValueInfluencesNothing : ∃ s', step (inPhase .drain 0 none []) = .next s' := ⟨_, rfl⟩

theorem witness_ParametersNeverChange : ∃ s', step (inPhase .idle 0 none [.reset]) = .next s' := ⟨_, rfl⟩

theorem witness_CmdWritePot0SetsTheDeviceWiper :
    0x1100#16 &&& 0x3100#16 = 0x1100#16 ∧ 0xDFFF#16 &&& 0x3100#16 = 0x1100#16 := by decide

theorem witness_CmdShutdownPot0EntersShutdown :
    0x2100#16 &&& 0x3100#16 = 0x2100#16 ∧ 0xEFFF#16 &&& 0x3100#16 = 0x2100#16 := by decide

theorem witness_CmdNopsChangeNothing :
    0xCFFF#16 &&& 0x3000#16 = 0x0000#16 ∧ 0x3000#16 &&& 0x3000#16 = 0x3000#16 := by decide

theorem witness_NoPotWordsAreRefused :
    0xDEFF#16 &&& 0x3100#16 = 0x1000#16 ∧ 0x2000#16 &&& 0x3100#16 = 0x2000#16 := by decide

end Sys2Proof.Tests
end

/-! The 32-bit computation of the resistance (43_resistance R172) loses nothing under the constraint of
00_scope R15: each intermediate, the product, the shifted product and the sum, stays below `2^32`. -/

namespace Sys2Proof.Machine

@[simp] theorem resistance_zero (l w : Nat) : resistance l w 0#8 = l + w := rfl

theorem resistance_of_ne_zero (l w : Nat) {p : Byte} (hp : p ≠ 0#8) :
    resistance l w p = ((l * p.toNat) >>> 8) + w := if_neg hp

/-- The product at the top tap bounds the product at every tap. -/
theorem ladder_mul_tap_le (l : Nat) (p : Byte) : l * p.toNat ≤ l * 255 :=
  Nat.mul_le_mul_left l (Nat.le_of_lt_succ p.isLt)

/-- R173: `res_ohms` has room for the value at every tap. -/
theorem resistance_lt {prm : Params} (hwf : prm.wf) (p : Byte) :
    resistance prm.ladderOhms prm.wiperOhms p < 2 ^ 32 := by
  obtain ⟨_, htop, hzero, _⟩ := hwf
  by_cases hp : p = 0#8
  · rwa [hp, resistance_zero]
  · rw [resistance_of_ne_zero _ _ hp]
    calc
      ((prm.ladderOhms * p.toNat) >>> 8) + prm.wiperOhms
        ≤ prm.ladderOhms * p.toNat + prm.wiperOhms := Nat.add_le_add_right (Nat.shiftRight_le _ 8) _
      _ ≤ prm.ladderOhms * 255 + prm.wiperOhms := Nat.add_le_add_right (ladder_mul_tap_le _ p) _
      _ < 2 ^ 32 := htop

theorem resistanceOhms_toNat {prm : Params} (hwf : prm.wf) (p : Byte) :
    (resistanceOhms prm.ladderOhms prm.wiperOhms p).toNat = resistance prm.ladderOhms prm.wiperOhms p :=
  (BitVec.toNat_ofNat _ _).trans (Nat.mod_eq_of_lt (resistance_lt hwf p))

/-- The 32-bit product of R172 is the exact one reduced mod `2^32`, for every `l`. -/
theorem ladder_mul_tap_eq_ofNat (l : Nat) (p : Byte) :
    (BitVec.ofNat 32 l : Ohms) * p.setWidth 32 = BitVec.ofNat 32 (l * p.toNat) := by
  rw [← BitVec.ofNat_toNat, BitVec.ofNat_mul]

/-- R172: shifting a product that fits drops the same bits as the exact shift. -/
theorem ofNat_shiftRight_eight {n : Nat} (hn : n < 2 ^ 32) :
    (BitVec.ofNat 32 n : Ohms) >>> 8 = BitVec.ofNat 32 (n >>> 8) := by
  apply BitVec.eq_of_toNat_eq
  have hshift : n >>> 8 < 2 ^ 32 := (Nat.shiftRight_le n 8).trans_lt hn
  rw [BitVec.toNat_ushiftRight, BitVec.toNat_ofNat, BitVec.toNat_ofNat, Nat.mod_eq_of_lt hn,
    Nat.mod_eq_of_lt hshift]

/-- Settles O26: the product fits by R15, so the shift is exact (reduction mod `2^32` commutes with the product and the
sum, but not with the shift); that the value itself fits is `resistance_lt`. -/
theorem resistanceFitsThirtyTwoBits : Obligations.ResistanceFitsThirtyTwoBits := by
  intro prm p hwf
  refine ⟨?_, resistanceOhms_toNat hwf p⟩
  by_cases hp : p = 0#8
  · rw [if_pos hp, hp, resistanceOhms, resistance_zero, BitVec.ofNat_add]
  · obtain ⟨_, htop, _, _⟩ := hwf
    have hfits : prm.ladderOhms * p.toNat < 2 ^ 32 :=
      (ladder_mul_tap_le _ p).trans_lt (Nat.lt_of_add_right_lt htop)
    rw [if_neg hp, ladder_mul_tap_eq_ofNat, ofNat_shiftRight_eight hfits, ← BitVec.ofNat_add,
      resistanceOhms, resistance_of_ne_zero _ _ hp]

end Sys2Proof.Machine

/-! What the state operations keep (10_state): the parameters, the outputs of the block, the history and the fault
set, each said once over what a step can do to the block. -/

namespace Sys2Proof.Machine

/-! ### The parameters (10_state R37) -/

theorem withValue_params {α : Type} (f : Option α) (s : State) (k : α → State)
    (hk : ∀ v, (k v).params = s.params) : (withValue f s k).params = s.params := by
  rcases withValue_cases f s k with ⟨_, h⟩ | ⟨v, _, h⟩ <;> rw [h]
  · rfl
  · exact hk v

@[simp] theorem initFields_params (arg : Byte) (s : State) : (initFields arg s).params = s.params := by
  rw [initFields_eq]

@[simp] theorem failedPoll_params (n : Nat) (s : State) : (failedPoll n s).params = s.params := by
  rcases failedPoll_cases n s with ⟨_, h⟩ | ⟨_, h⟩ <;> simp [h]

@[simp] theorem submit_params (s : State) : (submit s).params = s.params :=
  withValue_params _ _ _ fun _ => rfl

@[simp] theorem commit_params (s : State) : (commit s).params = s.params := by
  rcases commit_cases s with h | ⟨_, h⟩ | ⟨p, _, _, h⟩ <;> simp [h]

theorem Accepted.params_eq {s t : State} {i : Instr} (h : Accepted s i t) : t.params = s.params := by
  cases h <;> rfl

theorem exec_host_params {i : Instr} (hi : i.format = .hostop) {s s' : State} (h : exec i s = .next s') :
    s'.params = s.params := by
  rcases exec_host_cases hi s with ⟨_, e⟩ | ⟨_, k, _, e⟩ | ⟨_, arg, _, e⟩ | ⟨_, t, ha, e⟩ <;>
    rw [h] at e <;> cases e
  · rfl
  · rfl
  · exact initFields_params arg s
  · exact ha.params_eq

theorem blockStep_params {s s' : State} (h : blockStep s = .next s') : s'.params = s.params := by
  rcases blockStep_cases h with ⟨_, rfl⟩ | ⟨_, _, rfl⟩ | ⟨_, _, n, _, rfl⟩ | ⟨_, rfl⟩ | ⟨_, _, rfl⟩ |
    ⟨_, _, n, _, rfl⟩ | ⟨_, hc⟩ | ⟨_, rfl⟩ | ⟨_, rfl⟩
  case inr.inr.inr.inr.inr.inr.inl =>
    obtain ⟨_, _, hparams, _, _⟩ := closeFrame_frame hc
    exact hparams
  all_goals simp

theorem takeInput_params {e : Input} {s s' : State} (h : takeInput e s = .next s') : s'.params = s.params := by
  rcases takeInput_cases h with ⟨r, rfl, h⟩ | ⟨rfl, h⟩ | ⟨b, rfl, rfl⟩ | ⟨w, rfl, _, rfl⟩ | ⟨rfl, rfl⟩ |
    ⟨rfl, rfl⟩ | ⟨rfl, rfl⟩ | ⟨w, rfl, h⟩
  · exact exec_host_params (decodeHost_format r) h
  · exact blockStep_params h
  · rfl
  · rfl
  · exact resetBlock_params s
  · rfl
  · rfl
  · obtain ⟨_, _, hparams, _, _⟩ := deviceReads_frame h
    exact hparams

/-- Settles O56: no agent's act writes the parameters. -/
theorem parametersNeverChange : Obligations.ParametersNeverChange := by
  intro s s' h
  rcases step_cases h with ⟨_, h⟩ | ⟨e, rest, _, h⟩
  · exact blockStep_params h
  · exact (takeInput_params h :)

/-! ### The history and the fault set (10_state R31, R32) -/

/-- SUBMIT reads a latch that holds `⊥`, or sends its word (41_transaction_sequencer R123), as the block sees it. -/
theorem submit_block (s : State) :
    (submit s).block = (raiseFault .undefRead s).block ∨
    ∃ w, s.block.curWord = some w ∧
      (submit s).block = { s.block with trace := s.block.trace ++ [.tx w], pollCount := 0, phase := .waitRx } := by
  cases h : s.block.curWord with
  | none => exact .inl (by rw [submit_none h])
  | some w => exact .inr ⟨w, rfl, by rw [submit_some h]⟩

/-- The block's record only grew: events were appended to the history, and no fault bit was cleared. -/
structure RecordGrows (b b' : Block) : Prop where
  trace : b.trace <+: b'.trace
  faults : ∀ k, b.faults.has k = true → b'.faults.has k = true

/-- Appending events and keeping the fault set is growth. -/
theorem recordGrows_append {b b' : Block} (evs : List Event) (ht : b'.trace = b.trace ++ evs)
    (hf : b'.faults = b.faults) : RecordGrows b b' :=
  ⟨⟨evs, ht.symm⟩, fun k hk => by rwa [hf]⟩

/-- Raising a fault on top of appended events is growth. -/
theorem recordGrows_insert {b b' : Block} (evs : List Event) (j : FaultKind) (ht : b'.trace = b.trace ++ evs)
    (hf : b'.faults = b.faults.insert j) : RecordGrows b b' :=
  ⟨⟨evs, ht.symm⟩, fun k hk => by simp [hf, hk]⟩

theorem raiseFault_grows (k : FaultKind) (s : State) : RecordGrows s.block (raiseFault k s).block :=
  recordGrows_insert [] k (by simp) rfl

theorem Accepted.grows {s t : State} {i : Instr} (h : Accepted s i t) : RecordGrows s.block t.block := by
  cases h with
  | write tap => exact recordGrows_append [.req 0b010#3 tap] rfl rfl
  | shutdown payload => exact recordGrows_append [.req 0b011#3 payload] rfl rfl
  | incresUndef | decresUndef | getresUndef => exact raiseFault_grows .undefRead s
  | incresReject delta => exact recordGrows_append [.req 0b100#3 delta, .done .rejected] (by simp) rfl
  | incres delta => exact recordGrows_append [.req 0b100#3 delta] rfl rfl
  | decresReject delta => exact recordGrows_append [.req 0b101#3 delta, .done .rejected] (by simp) rfl
  | decres delta => exact recordGrows_append [.req 0b101#3 delta] rfl rfl
  | getres arg => exact recordGrows_append [.req 0b110#3 arg, .done .ok] (by simp) rfl

theorem failedPoll_grows (n : Nat) (s : State) : RecordGrows s.block (failedPoll n s).block := by
  rcases failedPoll_block n s with h | h <;> rw [h]
  · exact recordGrows_append [] (by simp) rfl
  · exact recordGrows_insert [.cs 1#1] .xportTimeout rfl rfl

theorem submit_grows (s : State) : RecordGrows s.block (submit s).block := by
  rcases submit_block s with h | ⟨w, _, h⟩ <;> rw [h]
  · exact raiseFault_grows .undefRead s
  · exact recordGrows_append [.tx w] rfl rfl

theorem commit_grows (s : State) : RecordGrows s.block (commit s).block := by
  rcases commit_cases s with h | ⟨_, h⟩ | ⟨p, _, _, h⟩ <;> rw [h]
  · exact raiseFault_grows .undefRead s
  · exact recordGrows_append [.done .ok] rfl rfl
  · exact recordGrows_append [.done .ok] rfl rfl

/-- Every act but a reset lets the record grow. -/
theorem BlockEffect.grows {s : State} {b : Block} (h : BlockEffect s b) (hr : ∀ rest, s.inputs ≠ .reset :: rest) :
    RecordGrows s.block b := by
  cases h with
  | same => exact recordGrows_append [] (by simp) rfl
  | reset rest hi => exact absurd hi (hr rest)
  | requestFault _ _ k => exact raiseFault_grows k s
  | init arg => exact recordGrows_append _ (by rw [initFields_eq]) (by rw [initFields_eq])
  | accepted _ _ _ _ _ _ _ ha => exact ha.grows
  | csAssert => exact recordGrows_append [.cs 0#1] rfl rfl
  | waitTx => exact recordGrows_append [] (by simp) rfl
  | failedPoll n => exact failedPoll_grows n s
  | submit => exact submit_grows s
  | waitRx => exact recordGrows_append [] (by simp) rfl
  | csDeassert => exact recordGrows_append [.cs 1#1] rfl rfl
  | drain => exact recordGrows_append [.rxDrain] rfl rfl
  | commit => exact commit_grows s

/-- After a reset act the block holds its reset values. -/
theorem step_reset_block {s s' : State} {rest : List Input} (hi : s.inputs = .reset :: rest)
    (h : step s = .next s') : s'.block = Block.reset := by
  rw [step_reset hi] at h
  cases h
  exact resetBlock_block _

/-- Settles O15: every effect but a reset keeps the fault bits, and the reset value of the set has none. -/
theorem faultBitsAreSticky : Obligations.FaultBitsAreSticky := by
  intro s s' h
  refine ⟨fun hr => ((step_effect h).grows hr).faults, fun rest hi k => ?_⟩
  rw [step_reset_block hi h]
  exact faultSet_has_empty k

/-- Settles O49: every effect but a reset appends to the history. -/
theorem historyOnlyGrows : Obligations.HistoryOnlyGrows := by
  intro s s' h hr
  obtain ⟨evs, hevs⟩ := ((step_effect h).grows hr).trace
  exact ⟨evs, hevs.symm⟩

/-! ### The outputs (10_state R22, R28, R29, R30) -/

/-- The fields that a completed operation writes hold what they held. -/
structure SameOutputs (b b' : Block) : Prop where
  wiper : b'.wiper = b.wiper
  xportEn : b'.xportEn = b.xportEn
  xportCfg : b'.xportCfg = b.xportCfg
  status : b'.status = b.status
  resOhms : b'.resOhms = b.resOhms

/-- The outputs of the block are written by a reset and by a step that completes an operation, and by no other. -/
inductive OutputEffect (s : State) : Block → Prop where
  | keeps {b : Block} : SameOutputs s.block b → OutputEffect s b
  | reset (rest : List Input) : s.inputs = .reset :: rest → OutputEffect s Block.reset
  | init (arg : Byte) (rest : List Input) : s.inputs = .request (packHost 1#3 arg) :: rest →
      s.block.phase = .uninit → OutputEffect s (initFields arg s).block
  | incresRejected (delta p : Byte) (rest : List Input) : s.inputs = .request (packHost 4#3 delta) :: rest →
      s.block.phase = .idle → s.block.wiper = some p → p.toNat < delta.toNat →
      OutputEffect s (done .rejected (emit (.req 4#3 delta) s)).block
  | decresRejected (delta p : Byte) (rest : List Input) : s.inputs = .request (packHost 5#3 delta) :: rest →
      s.block.phase = .idle → s.block.wiper = some p → 255 < p.toNat + delta.toNat →
      OutputEffect s (done .rejected (emit (.req 5#3 delta) s)).block
  | getres (arg p : Byte) (rest : List Input) : s.inputs = .request (packHost 6#3 arg) :: rest →
      s.block.phase = .idle → s.block.wiper = some p →
      OutputEffect s (getresAccepted arg s).block
  | commitWrite (p : Byte) : s.block.phase = .commit → s.block.curOpc = some .write →
      s.block.curPayload = some p →
      OutputEffect s (done .ok { s with block := { s.block with wiper := some p } }).block
  | commitShutdown : s.block.phase = .commit → OutputEffect s (done .ok s).block

theorem sameOutputs_raiseFault (k : FaultKind) (s : State) : SameOutputs s.block (raiseFault k s).block :=
  ⟨rfl, rfl, rfl, rfl, rfl⟩

theorem sameOutputs_txnStart (opc : Opcode) (p : Byte) (e : Event) (s : State) :
    SameOutputs s.block (txnStart opc p (emit e s)).block :=
  ⟨rfl, rfl, rfl, rfl, rfl⟩

theorem sameOutputs_failedPoll (n : Nat) (s : State) : SameOutputs s.block (failedPoll n s).block := by
  rcases failedPoll_block n s with h | h <;> rw [h] <;> exact ⟨rfl, rfl, rfl, rfl, rfl⟩

theorem sameOutputs_submit (s : State) : SameOutputs s.block (submit s).block := by
  rcases submit_block s with h | ⟨w, _, h⟩ <;> rw [h] <;> exact ⟨rfl, rfl, rfl, rfl, rfl⟩

/-- An operation accepted in IDLE writes an output only where it completes at once: a rejected move, and GETRES. -/
theorem Accepted.outputEffect {s t : State} {r : ReqWord} {rest : List Input} {i : Instr} (h : Accepted s i t)
    (hi : s.inputs = .request r :: rest) (hp : s.block.phase = .idle) (hd : decodeHost r = i) :
    OutputEffect s t.block := by
  cases h with
  | write | shutdown | incres | decres => exact .keeps (sameOutputs_txnStart _ _ _ s)
  | incresUndef | decresUndef | getresUndef => exact .keeps (sameOutputs_raiseFault _ s)
  | incresReject delta p hw hlt =>
    obtain rfl := eq_packHost_of_decodeHost (op := 4#3) (arg := delta) hd
    exact .incresRejected delta p rest hi hp hw hlt
  | decresReject delta p hw hlt =>
    obtain rfl := eq_packHost_of_decodeHost (op := 5#3) (arg := delta) hd
    exact .decresRejected delta p rest hi hp hw hlt
  | getres arg p hw =>
    obtain rfl := eq_packHost_of_decodeHost (op := 6#3) (arg := arg) hd
    exact getresAccepted_read hw ▸ .getres arg p rest hi hp hw

theorem commit_outputEffect {s : State} (hp : s.block.phase = .commit) : OutputEffect s (commit s).block := by
  rcases commit_cases s with h | ⟨_, h⟩ | ⟨p, ho, hv, h⟩ <;> rw [h]
  · exact .keeps (sameOutputs_raiseFault _ s)
  · exact .commitShutdown hp
  · exact .commitWrite p hp ho hv

theorem BlockEffect.outputEffect {s : State} {b : Block} (h : BlockEffect s b) : OutputEffect s b := by
  cases h with
  | reset rest hi => exact .reset rest hi
  | init arg rest hi hp => exact .init arg rest hi hp
  | accepted r rest i t hi hp hd ha => exact ha.outputEffect hi hp hd
  | commit hp => exact commit_outputEffect hp
  | requestFault _ _ k => exact .keeps (sameOutputs_raiseFault k s)
  | failedPoll n => exact .keeps (sameOutputs_failedPoll n s)
  | submit => exact .keeps (sameOutputs_submit s)
  | same | csAssert | waitTx | waitRx | csDeassert | drain => exact .keeps ⟨rfl, rfl, rfl, rfl, rfl⟩

/-- What a step can do to the outputs of the block. -/
theorem step_outputEffect {s s' : State} (h : step s = .next s') : OutputEffect s s'.block :=
  (step_effect h).outputEffect

/-- Settles O48: of the effects on the outputs, reset, INIT and the COMMIT of a write touch the wiper. -/
theorem wiperIsWrittenByInitAndCommitOnly : Obligations.WiperIsWrittenByInitAndCommitOnly := by
  intro s s' h
  have he := step_outputEffect h
  generalize s'.block = b at he ⊢
  cases he with
  | keeps hs => exact .inl hs.wiper
  | reset rest hi => exact .inr (.inl ⟨rest, hi, rfl⟩)
  | init arg rest hi hp => exact .inr (.inr (.inl ⟨arg, rest, hi, hp, by rw [initFields_eq]⟩))
  | commitWrite p hp ho hv => exact .inr (.inr (.inr ⟨hp, ho, hv.symm⟩))
  | getres arg p _ _ _ hw => exact .inl (by simp [getresAccepted_read hw])
  | incresRejected | decresRejected | commitShutdown => exact .inl rfl

/-- Settles O50: of the effects on the outputs, reset and INIT touch the transport enable and configuration. -/
theorem transportConfigIsWrittenByInitOnly : Obligations.TransportConfigIsWrittenByInitOnly := by
  intro s s' h
  have he := step_outputEffect h
  generalize s'.block = b at he ⊢
  cases he with
  | keeps hs => exact .inl ⟨hs.xportEn, hs.xportCfg⟩
  | reset rest hi => exact .inr (.inl ⟨rest, hi, rfl, rfl⟩)
  | init arg rest hi hp =>
    rw [initFields_eq]
    exact .inr (.inr ⟨arg, rest, hi, hp, rfl, rfl⟩)
  | getres arg p _ _ _ hw => exact .inl (by simp [getresAccepted_read hw])
  | incresRejected | decresRejected | commitWrite | commitShutdown => exact .inl ⟨rfl, rfl⟩

/-- Settles O51: of the effects on the outputs, reset and GETRES touch the result. -/
theorem resultIsWrittenByGetresOnly : Obligations.ResultIsWrittenByGetresOnly := by
  intro s s' h
  have he := step_outputEffect h
  generalize s'.block = b at he ⊢
  cases he with
  | keeps hs => exact .inl hs.resOhms
  | reset rest hi => exact .inr (.inl ⟨rest, hi, rfl⟩)
  | getres arg p rest hi hp hw =>
    exact .inr (.inr ⟨arg, rest, p, hi, hp, hw, by simp [getresAccepted_read hw]⟩)
  | init => exact .inl (by rw [initFields_eq])
  | incresRejected | decresRejected | commitWrite | commitShutdown => exact .inl rfl

/-- Settles O52: of the effects on the outputs, the two failed bound checks alone write REJECTED; the others complete
with OK, clear the status or keep it. -/
theorem rejectedComesFromAFailedBoundCheck : Obligations.RejectedComesFromAFailedBoundCheck := by
  intro s s' h hs
  have he := step_outputEffect h
  generalize s'.block = b at he hs
  cases he with
  | keeps hk => exact .inl (hk.status ▸ hs)
  | incresRejected delta p rest hi hp hw hlt => exact .inr ⟨delta, rest, p, hp, hw, .inl ⟨hi, hlt⟩⟩
  | decresRejected delta p rest hi hp hw hlt => exact .inr ⟨delta, rest, p, hp, hw, .inr ⟨hi, hlt⟩⟩
  | reset => cases hs
  | init => simp [initFields_eq] at hs
  | getres arg p _ _ _ hw => simp [getresAccepted_read hw] at hs
  | commitWrite | commitShutdown => simp at hs

/-! ### The reset values (10_state R40) -/

/-- Settles O16: `Block.reset` holds the values of R40, and the reset act gives it in every phase. -/
theorem resetSetsEveryFieldOfTheBlock : Obligations.ResetSetsEveryFieldOfTheBlock :=
  ⟨rfl, fun _ _ hi => ⟨_, step_reset hi, resetBlock_block _⟩⟩

end Sys2Proof.Machine

/-! The machine's invariant is kept by every step: once for the acts that leave the block alone, once for the faults,
once for reset and INIT, and once for each step of a running block. -/

namespace Sys2Proof.Safety

open Sys2Proof.Machine

/-! ### What the invariant says -/

/-- The latch holds an encoded command (10_state R26). -/
def LatchOk (b : Block) : Prop :=
  ∃ opc p, b.curOpc = some opc ∧ b.curPayload = some p ∧ b.curWord = some (encodeCommand opc p)

/-- The poll counter is unused without a timeout, and below the bound in a wait phase (10_state R33, 60_exceptions
R205). -/
def PollsOk (prm : Params) (b : Block) : Prop :=
  (prm.xportTimeout = none → b.pollCount = 0) ∧
    ∀ n, prm.xportTimeout = some n → b.phase = .waitTx ∨ b.phase = .waitRx → b.pollCount < max n 1

theorem pollsOk_of_zero (prm : Params) {b : Block} (h : b.pollCount = 0) : PollsOk prm b :=
  ⟨fun _ => h, fun n _ _ => by omega⟩

/-- Outside the wait phases the counter is free, but for the case without a timeout. -/
theorem pollsOk_of_not_wait {prm : Params} {b : Block} (h : prm.xportTimeout = none → b.pollCount = 0)
    (htx : b.phase ≠ .waitTx) (hrx : b.phase ≠ .waitRx) : PollsOk prm b :=
  ⟨h, fun _ _ hw => (hw.elim htx hrx).elim⟩

theorem Running.ne_uninit {ph : Phase} (h : Running ph) : ph ≠ .uninit := by
  rintro rfl
  simp [Running, Phase.isTransaction] at h

theorem Running.ne_faulted {ph : Phase} (h : Running ph) : ph ≠ .faulted := by
  rintro rfl
  simp [Running, Phase.isTransaction] at h

section
variable {s t : State}

theorem Inv.csN_eq (h : Inv s) {ph : Phase} (hp : s.block.phase = ph) (hf : ph ≠ .faulted) :
    s.block.csN = csLevel ph := by
  subst hp
  exact h.chipSelect hf

theorem Inv.receive_eq (h : Inv s) {ph : Phase} (hp : s.block.phase = ph) : ReceiveOk ph s.transport :=
  hp ▸ h.receive

theorem Inv.latchOk (h : Inv s) (hp : s.block.phase.isTransaction = true) : LatchOk s.block := h.latch hp

/-- With chip-select not asserted no frame is open at the device (10_state R27). -/
theorem Inv.frame_empty (h : Inv s) (hcs : s.block.csN ≠ some 0#1) : s.device.frame = .empty := by
  have hf := h.frame
  have hlevel := h.chipSelect
  cases hp : s.block.phase <;> simp only [FrameOk, hp] at hf <;> simp_all [csLevel]

/-- With chip-select asserted the frame may have been spoiled, whatever it carried. -/
theorem Inv.frameOk_interrupted (h : Inv s) (hcs : s.block.csN = some 0#1) : FrameOk s.block .interrupted := by
  have hlevel := h.chipSelect
  cases hp : s.block.phase <;> simp_all [FrameOk, csLevel]

/-- An empty frame is in order wherever the block has chip-select not asserted. -/
theorem Inv.frameOk_empty (h : Inv s) (hcs : s.block.csN ≠ some 0#1) : FrameOk s.block .empty :=
  h.frame_empty hcs ▸ h.frame

/-! ### The acts that leave the block alone -/

/-- The transport and the device may move under a block that stands still, within what the invariant allows them. -/
theorem Inv.of_sameBlock (h : Inv s) (hparams : t.params = s.params) (hblock : t.block = s.block)
    (receive : ReceiveOk s.block.phase t.transport) (frame : FrameOk s.block t.device.frame) : Inv t := by
  obtain ⟨prm, b, tr, d, inputs, n⟩ := t
  obtain rfl : prm = s.params := hparams
  obtain rfl : b = s.block := hblock
  exact { h with receive := receive, frame := frame }

theorem Inv.withInputs (h : Inv s) (rest : List Input) : Inv { s with inputs := rest } :=
  h.of_sameBlock rfl rfl h.receive h.frame

theorem Inv.after_txFree (h : Inv s) (b : Bool) : Inv { s with transport := { s.transport with txFree := b } } := by
  refine h.of_sameBlock rfl rfl ?_ h.frame
  have hr := h.receive
  cases hp : s.block.phase <;> rw [hp] at hr <;> exact hr

/-- A delivery that is owed falls in WAIT_RX, in UNINIT or in FAULTED (20_memory R56). -/
theorem Inv.after_receiveWord (h : Inv s) (w : CmdWord) (ho : s.transport.rxOwed = true) :
    Inv { s with transport := { s.transport with rxAvail := true, rxWord := w, rxOwed := false } } := by
  refine h.of_sameBlock rfl rfl ?_ h.frame
  have hr := h.receive
  cases hp : s.block.phase <;> simp_all [ReceiveOk]

theorem Inv.after_devicePowerUp (h : Inv s) : Inv (devicePowerUp s) := by
  refine h.of_sameBlock rfl rfl h.receive ?_
  by_cases hcs : s.block.csN = some 0#1
  · simpa [devicePowerUp, hcs] using h.frameOk_interrupted hcs
  · simpa [devicePowerUp, hcs] using h.frameOk_empty hcs

theorem Inv.after_busError (h : Inv s) : Inv (busError s) := by
  rcases busError_frame s with ⟨hcs, hf⟩ | ⟨_, hsame⟩
  · exact h.of_sameBlock rfl rfl h.receive (hf ▸ h.frameOk_interrupted hcs)
  · exact hsame.symm ▸ h

theorem Inv.after_deviceReads (h : Inv s) {w : CmdWord} (hd : deviceReads w s = .next t) : Inv t := by
  obtain ⟨hblock, htransport, hparams, _, hframe⟩ := deviceReads_frame hd
  exact h.of_sameBlock hparams hblock (htransport ▸ h.receive) (hframe ▸ h.frame)

/-- The device's reading at the closing edge, over a state whose block has released the frame. -/
theorem Inv.after_closeFrame {u : State} (hc : closeFrame u = .next t)
    (h : Inv { u with device := { u.device with frame := .empty } }) : Inv t := by
  obtain ⟨hblock, htransport, hparams, _, hframe⟩ := closeFrame_frame hc
  exact h.of_sameBlock hparams hblock (htransport ▸ h.receive) (hframe ▸ h.frame)

/-! ### Reset and the faults -/

/-- The reset values meet the invariant with every transport and a device without an open frame (10_state R40). -/
theorem inv_of_resetBlock (hwf : t.params.wf) (hblock : t.block = Block.reset) (hframe : t.device.frame = .empty) :
    Inv t := by
  obtain ⟨prm, b, tr, d, inputs, n⟩ := t
  obtain rfl : b = Block.reset := hblock
  exact
    { params := hwf
      fresh := fun _ => rfl
      ready := fun hr => absurd rfl hr.ne_uninit
      latch := nofun
      chipSelect := fun _ => rfl
      faulted := iff_of_false nofun (not_not_intro rfl)
      defined := rfl
      polls := fun _ => rfl
      pollBound := fun n _ _ => by simp [Block.reset]
      receive := trivial
      frame := hframe }

theorem Inv.after_resetBlock (h : Inv s) : Inv (resetBlock s) := by
  refine inv_of_resetBlock (by simpa using h.params) (resetBlock_block s) ?_
  rcases resetBlock_cases s with ⟨_, he⟩ | ⟨hclosed, he⟩ <;> rw [he]
  · rfl
  · exact h.frame_empty (by simpa [frameOpen] using hclosed)

/-- A faulted block owes the invariant little: no UNDEF_READ, and no frame left behind unless chip-select is still
asserted (60_exceptions R200, R204). -/
theorem inv_raiseFault {k : FaultKind} (hk : k ≠ .undefRead) (hwf : s.params.wf)
    (hdef : s.block.faults.undefRead = false) (hpolls : s.params.xportTimeout = none → s.block.pollCount = 0)
    (hframe : s.block.csN = some 0#1 ∨ s.device.frame = .empty) : Inv (raiseFault k s) where
  params := hwf
  fresh := nofun
  ready hr := absurd rfl hr.ne_faulted
  latch := nofun
  chipSelect hp := absurd rfl hp
  faulted := iff_of_true rfl (faultSet_insert_ne_empty _ _)
  defined := by
    have hhas : (s.block.faults.insert k).has .undefRead = false := by
      rw [faultSet_has_insert, decide_eq_false hk.symm, Bool.false_or]
      exact hdef
    exact hhas
  polls := hpolls
  pollBound _ _ hw := by simp at hw
  receive := trivial
  frame := hframe

/-- A fault raised where the invariant holds, in any phase. -/
theorem Inv.after_raiseFault (h : Inv s) {k : FaultKind} (hk : k ≠ .undefRead) : Inv (raiseFault k s) :=
  inv_raiseFault hk h.params h.defined h.polls (or_iff_not_imp_left.2 h.frame_empty)

/-! ### A running block -/

/-- What a step of a running block keeps: the parameters, a value in the wiper, the enabled transport and the fault
set; and the block is still running. -/
structure KeepsRunning (s t : State) : Prop where
  running : Running t.block.phase
  params : t.params = s.params
  wiper : (∃ p, s.block.wiper = some p) → ∃ p, t.block.wiper = some p
  xportEn : t.block.xportEn = s.block.xportEn
  xportCfg : t.block.xportCfg = s.block.xportCfg
  faults : t.block.faults = s.block.faults

/-- The invariant in a running phase, from what the step keeps and what it has to show for its new phase. -/
theorem Inv.of_keepsRunning (h : Inv s) (hs : Running s.block.phase) (hk : KeepsRunning s t)
    (latch : t.block.phase.isTransaction = true → LatchOk t.block) (chipSelect : t.block.csN = csLevel t.block.phase)
    (polls : PollsOk t.params t.block) (receive : ReceiveOk t.block.phase t.transport)
    (frame : FrameOk t.block t.device.frame) : Inv t := by
  obtain ⟨hwiper, hen, hcfg⟩ := h.ready hs
  have hnoFault : s.block.faults = FaultSet.empty := of_not_not fun hne => hs.ne_faulted (h.faulted.2 hne)
  exact
    { params := hk.params ▸ h.params
      fresh := fun hp => absurd hp hk.running.ne_uninit
      ready := fun _ => ⟨hk.wiper hwiper, hk.xportEn.trans hen, hk.params ▸ hk.xportCfg.trans hcfg⟩
      latch := latch
      chipSelect := fun _ => chipSelect
      faulted := iff_of_false hk.running.ne_faulted (not_not_intro (hk.faults.trans hnoFault))
      defined := hk.faults ▸ h.defined
      polls := polls.1
      pollBound := polls.2
      receive := receive
      frame := frame }

/-- INIT makes the fresh block a running one (44_lifecycle R190). -/
theorem Inv.after_initFields (h : Inv s) (hp : s.block.phase = .uninit) (arg : Byte) : Inv (initFields arg s) := by
  have hfresh : s.block = Block.reset := h.fresh hp
  have hframe : s.device.frame = .empty := h.frame_empty (by simp [hfresh, Block.reset])
  rw [initFields_eq, hfresh]
  exact
    { params := h.params
      fresh := nofun
      ready := fun _ => ⟨⟨_, rfl⟩, rfl, rfl⟩
      latch := nofun
      chipSelect := fun _ => rfl
      faulted := iff_of_false nofun (not_not_intro rfl)
      defined := rfl
      polls := fun _ => rfl
      pollBound := fun n _ hw => by simp at hw
      receive := ⟨rfl, rfl⟩
      frame := hframe }

/-- An operation accepted in IDLE starts its transaction (41_transaction_sequencer R120). -/
theorem Inv.after_txnStart (h : Inv s) (hp : s.block.phase = .idle) (opc : Opcode) (p : Byte) (e : Event) :
    Inv (txnStart opc p (emit e s)) :=
  have hcs := h.csN_eq hp (by decide)
  have hr : ReceiveOk .idle s.transport := h.receive_eq hp
  h.of_keepsRunning (.inl hp) ⟨.inr rfl, rfl, id, rfl, rfl, rfl⟩
    (fun _ => ⟨opc, p, rfl, rfl, rfl⟩) hcs
    (pollsOk_of_not_wait h.polls (by simp) (by simp))
    hr (h.frame_empty (by simp [hcs, csLevel]))

/-- An operation completes from IDLE or COMMIT: the block ends in IDLE, and nothing is open or owed. -/
theorem Inv.completes (h : Inv s) (hp : s.block.phase = .idle ∨ s.block.phase = .commit) (hk : KeepsRunning s t)
    (hidle : t.block.phase = .idle) (hcsN : t.block.csN = s.block.csN)
    (hpoll : t.block.pollCount = s.block.pollCount) (htransport : t.transport = s.transport)
    (hdevice : t.device = s.device) : Inv t := by
  have hs : Running s.block.phase := hp.imp id fun hc => by rw [hc]; rfl
  have hcs : s.block.csN = some 1#1 := hp.elim (h.csN_eq · (by decide)) (h.csN_eq · (by decide))
  have hrecv : ReceiveOk .idle s.transport := hp.elim h.receive_eq h.receive_eq
  refine h.of_keepsRunning hs hk ?_ ?_ (pollsOk_of_not_wait ?_ ?_ ?_) ?_ ?_
  · simp [hidle, Phase.isTransaction]
  · rw [hidle, hcsN, hcs]
    rfl
  · rw [hk.params, hpoll]
    exact h.polls
  · simp [hidle]
  · simp [hidle]
  · rwa [hidle, htransport]
  · simpa [FrameOk, hidle, hdevice] using h.frame_empty (by simp [hcs])

/-- An accepted operation meets a wiper that holds a value, so that none of them reads `⊥` (60_exceptions R204). -/
theorem Inv.after_accepted (h : Inv s) (hp : s.block.phase = .idle) {i : Instr} (ha : Accepted s i t) : Inv t := by
  obtain ⟨⟨p, hw⟩, _, _⟩ := h.ready (.inl hp)
  cases ha with
  | write | shutdown | incres | decres => exact h.after_txnStart hp _ _ _
  | incresUndef _ hn | decresUndef _ hn | getresUndef _ hn => simp [hn] at hw
  | incresReject | decresReject | getres =>
    exact h.completes (.inl hp) ⟨.inl rfl, rfl, id, rfl, rfl, rfl⟩ rfl rfl rfl rfl rfl

/-- The request port (60_exceptions R206). -/
theorem Inv.after_exec (h : Inv s) {i : Instr} (hi : i.format = .hostop) (he : exec i s = .next t) : Inv t := by
  rcases exec_host_cases hi s with ⟨_, e⟩ | ⟨_, k, hk, e⟩ | ⟨hp, arg, _, e⟩ | ⟨hp, u, ha, e⟩ <;>
    rw [he] at e <;> cases e
  · exact h
  · exact h.after_raiseFault fun hu => requestFault_ne_undefRead _ _ (hu ▸ hk)
  · exact h.after_initFields hp arg
  · exact h.after_accepted hp ha

/-! ### The phases of a transaction -/

theorem Inv.after_csAssert (h : Inv s) (hp : s.block.phase = .csAssert) : Inv (csAssert s) :=
  have hs : s.block.phase.isTransaction = true := hp ▸ rfl
  have hr : ReceiveOk .csAssert s.transport := h.receive_eq hp
  h.of_keepsRunning (.inr hs) ⟨.inr rfl, rfl, id, rfl, rfl, rfl⟩ (fun _ => h.latchOk hs) rfl
    (pollsOk_of_zero _ rfl) hr (.inl rfl)

/-- A wait phase whose condition holds goes on: the latch, the line and the frame are those of the wait. -/
theorem Inv.goesOn (h : Inv s) {ph next : Phase} (hp : s.block.phase = ph) (ht : ph.isTransaction = true)
    (hnext : next.isTransaction = true) (hcs : csLevel next = csLevel ph) (htx : next ≠ .waitTx)
    (hrx : next ≠ .waitRx) (receive : ReceiveOk next s.transport)
    (frame : FrameOk { s.block with phase := next } s.device.frame) :
    Inv { s with block := { s.block with phase := next } } := by
  have hph : ph ≠ .faulted := by
    rintro rfl
    cases ht
  exact h.of_keepsRunning (.inr (hp ▸ ht)) ⟨.inr hnext, rfl, id, rfl, rfl, rfl⟩
    (fun _ => h.latchOk (hp ▸ ht)) ((h.csN_eq hp hph).trans hcs.symm)
    (pollsOk_of_not_wait h.polls htx hrx) receive frame

theorem Inv.after_waitTx (h : Inv s) (hp : s.block.phase = .waitTx) :
    Inv { s with block := { s.block with phase := .submit } } := by
  have hf := h.frame
  simp only [FrameOk, hp] at hf
  have hr : ReceiveOk .waitTx s.transport := h.receive_eq hp
  exact h.goesOn hp rfl rfl rfl (by decide) (by decide) hr hf

theorem Inv.after_waitRx (h : Inv s) (hp : s.block.phase = .waitRx) (hrx : s.transport.rxAvail = true) :
    Inv { s with block := { s.block with phase := .csDeassert } } := by
  have hf := h.frame
  simp only [FrameOk, hp] at hf
  have hr : s.transport.rxAvail = !s.transport.rxOwed := h.receive_eq hp
  exact h.goesOn hp rfl rfl rfl (by decide) (by decide) ⟨hrx, by simpa [hrx] using hr.symm⟩ hf

/-- A failed poll counts below the bound, or aborts the frame with XPORT_TIMEOUT (60_exceptions R205). -/
theorem Inv.after_failedPoll (h : Inv s) (hp : s.block.phase = .waitTx ∨ s.block.phase = .waitRx) {n : Nat}
    (hn : s.params.xportTimeout = some n) : Inv (failedPoll n s) := by
  rcases failedPoll_cases n s with ⟨hlt, he⟩ | ⟨_, he⟩ <;> rw [he]
  · refine { h with fresh := fun hu => ?_, polls := fun h0 => ?_, pollBound := fun m hm _ => ?_ }
    · simp [show s.block.phase = .uninit from hu] at hp
    · simp [show s.params.xportTimeout = none from h0] at hn
    · obtain rfl : n = m := Option.some.inj (hn.symm.trans hm)
      exact hlt.trans_le (le_max_left _ _)
  · exact inv_raiseFault (by decide) (by simpa using h.params) (by simpa using h.defined)
      (by simpa using h.polls) (.inr (abortFrame_frame _))

/-- SUBMIT puts the latched word into the open frame, and the transport owes its answer (41_transaction_sequencer
R123). -/
theorem Inv.after_submit (h : Inv s) (hp : s.block.phase = .submit) : Inv (submit s) := by
  have hs : s.block.phase.isTransaction = true := hp ▸ rfl
  obtain ⟨opc, p, hopc, hpay, hword⟩ := h.latch hs
  obtain ⟨hAvail, _⟩ : ReceiveOk .submit s.transport := h.receive_eq hp
  have hcs : s.block.csN = csLevel .submit := h.csN_eq hp (by decide)
  have hf := h.frame
  simp only [FrameOk, hp] at hf
  rw [submit_some hword]
  refine h.of_keepsRunning (.inr hs) ⟨.inr rfl, rfl, id, rfl, rfl, rfl⟩ (fun _ => h.latchOk hs)
    hcs (pollsOk_of_zero _ rfl) hAvail ?_
  rcases hf with hf | hf <;> rw [hf]
  · exact .inl ⟨_, hword, rfl⟩
  · exact .inr rfl

/-- CS_DEASSERT closes the frame, with the device's reading of it (41_transaction_sequencer R125). -/
theorem Inv.after_csDeassert (h : Inv s) (hp : s.block.phase = .csDeassert) (hc : closeFrame (csDeassert s) = .next t) :
    Inv t :=
  have hs : s.block.phase.isTransaction = true := hp ▸ rfl
  have hr : ReceiveOk .csDeassert s.transport := h.receive_eq hp
  Inv.after_closeFrame hc <|
    h.of_keepsRunning (.inr hs) ⟨.inr rfl, rfl, id, rfl, rfl, rfl⟩ (fun _ => h.latchOk hs) rfl
      (pollsOk_of_not_wait h.polls (by simp) (by simp)) hr rfl

theorem Inv.after_drain (h : Inv s) (hp : s.block.phase = .drain) : Inv (drain s) :=
  have hs : s.block.phase.isTransaction = true := hp ▸ rfl
  have hcs := h.csN_eq hp (by decide)
  have hr : ReceiveOk .drain s.transport := h.receive_eq hp
  h.of_keepsRunning (.inr hs) ⟨.inr rfl, rfl, id, rfl, rfl, rfl⟩ (fun _ => h.latchOk hs) hcs
    (pollsOk_of_not_wait h.polls (by simp) (by simp)) ⟨rfl, hr.2⟩ (h.frame_empty (by simp [hcs, csLevel]))

/-- COMMIT finds its latch full, and completes (41_transaction_sequencer R128). -/
theorem Inv.after_commit (h : Inv s) (hp : s.block.phase = .commit) : Inv (commit s) := by
  obtain ⟨opc, p, hopc, hpay, _⟩ := h.latch (hp ▸ rfl)
  cases opc with
  | write =>
    rw [commit_write hopc hpay]
    exact h.completes (.inr hp) ⟨.inl rfl, rfl, fun _ => ⟨p, rfl⟩, rfl, rfl, rfl⟩ rfl rfl rfl rfl rfl
  | shutdown =>
    rw [commit_shutdown hopc]
    exact h.completes (.inr hp) ⟨.inl rfl, rfl, id, rfl, rfl, rfl⟩ rfl rfl rfl rfl rfl

/-! ### Every step -/

theorem Inv.after_blockStep (h : Inv s) (he : blockStep s = .next t) : Inv t := by
  rcases blockStep_cases he with ⟨hp, rfl⟩ | ⟨hp, _, rfl⟩ | ⟨hp, _, n, hn, rfl⟩ | ⟨hp, rfl⟩ | ⟨hp, hrx, rfl⟩ |
    ⟨hp, _, n, hn, rfl⟩ | ⟨hp, hc⟩ | ⟨hp, rfl⟩ | ⟨hp, rfl⟩
  · exact h.after_csAssert hp
  · exact h.after_waitTx hp
  · exact h.after_failedPoll (.inl hp) hn
  · exact h.after_submit hp
  · exact h.after_waitRx hp hrx
  · exact h.after_failedPoll (.inr hp) hn
  · exact h.after_csDeassert hp hc
  · exact h.after_drain hp
  · exact h.after_commit hp

theorem Inv.after_takeInput (h : Inv s) {e : Input} (he : takeInput e s = .next t) : Inv t := by
  rcases takeInput_cases he with ⟨r, rfl, hx⟩ | ⟨rfl, hx⟩ | ⟨b, rfl, rfl⟩ | ⟨w, rfl, ho, rfl⟩ | ⟨rfl, rfl⟩ |
    ⟨rfl, rfl⟩ | ⟨rfl, rfl⟩ | ⟨w, rfl, hx⟩
  · exact h.after_exec (decodeHost_format r) hx
  · exact h.after_blockStep hx
  · exact h.after_txFree b
  · exact h.after_receiveWord w ho
  · exact h.after_resetBlock
  · exact h.after_devicePowerUp
  · exact h.after_busError
  · exact h.after_deviceReads hx

end

/-- Settles O44: a step is the block's own or one agent's act, and each of them keeps the invariant. -/
theorem everyStepKeepsTheInvariant : Obligations.EveryStepKeepsTheInvariant := by
  intro s t h hst
  rcases step_cases hst with ⟨_, he⟩ | ⟨e, rest, _, he⟩
  · exact h.after_blockStep he
  · exact (h.withInputs rest).after_takeInput he

/-! ### At reset -/

/-- The default parameters satisfy 00_scope R15, whatever the open ones are: their types bound them. -/
theorem default_wf : Params.default.wf := by
  have hW := Config.wiperOhms.isLt
  refine ⟨by decide, ?_, ?_, Config.xportClockHz.pos⟩ <;> simp only [Params.default] <;> omega

/-- Settles O45: the block has its reset values, and no frame is open. -/
theorem resetMeetsTheInvariant : Obligations.ResetMeetsTheInvariant :=
  inv_of_resetBlock default_wf rfl rfl

/-- Settles O47: the empty history stands at the start, where UNINIT puts the block. -/
theorem resetHistoryIsInOrder : Obligations.ResetHistoryIsInOrder :=
  ⟨.fresh, rfl, rfl⟩

end Sys2Proof.Safety

/-! Every step keeps the history in order (20_memory R61): the word an operation sends is the one its rule gives in
natural numbers, and each event is read where the block stands. -/

namespace Sys2Proof.Safety

open Sys2Proof.Machine

/-! ### The words the rules give, as the encoder makes them -/

theorem expected_write (p tap : Byte) : expected p 0b010#3 tap = some (tap, encodeCommand .write tap) := by
  rw [encodeCommand_write]
  rfl

theorem expected_shutdown (p payload : Byte) :
    expected p 0b011#3 payload = some (p, encodeCommand .shutdown payload) := by
  rw [encodeCommand_shutdown]
  rfl

theorem expected_incres {p delta : Byte} (hd : delta.toNat ≤ p.toNat) :
    expected p 0b100#3 delta = some (p - delta, encodeCommand .write (p - delta)) := by
  have hsub : (p - delta).toNat = p.toNat - delta.toNat := BitVec.toNat_sub_of_le hd
  have htap : BitVec.ofNat 8 (p.toNat - delta.toNat) = p - delta := by
    rw [← hsub, BitVec.ofNat_toNat, BitVec.setWidth_eq]
  rw [encodeCommand_write, hsub]
  simp [expected, hd, htap]

theorem expected_incres_reject {p delta : Byte} (hd : p.toNat < delta.toNat) : expected p 0b100#3 delta = none :=
  if_neg (by omega)

theorem expected_decres {p delta : Byte} (hd : p.toNat + delta.toNat ≤ 255) :
    expected p 0b101#3 delta = some (p + delta, encodeCommand .write (p + delta)) := by
  have hadd : (p + delta).toNat = p.toNat + delta.toNat := BitVec.toNat_add_of_lt (by omega)
  have htap : BitVec.ofNat 8 (p.toNat + delta.toNat) = p + delta := by
    rw [← hadd, BitVec.ofNat_toNat, BitVec.setWidth_eq]
  rw [encodeCommand_write, hadd]
  simp [expected, hd, htap]

theorem expected_decres_reject {p delta : Byte} (hd : 255 < p.toNat + delta.toNat) :
    expected p 0b101#3 delta = none :=
  if_neg (by omega)

/-! ### Reading a history event by event -/

/-- `HistoryOk` as it depends on the parameters and the block alone. -/
def InOrder (prm : Params) (b : Block) : Prop := ∃ h, readHistory prm b.trace = some h ∧ Agrees b h

theorem historyOk_iff (s : State) : HistoryOk s ↔ InOrder s.params s.block := Iff.rfl

section
variable {prm : Params} {tr : List Event} {h h' : Stand}

/-- One more event is read from where the history stands. -/
theorem readHistory_snoc {e : Event} (hr : readHistory prm tr = some h) (he : h.read prm e = some h') :
    readHistory prm (tr ++ [e]) = some h' := by
  have : readHistory prm (tr ++ [e]) = (readHistory prm tr).bind (·.read prm e) := by
    simp [readHistory]
  rw [this, hr]
  exact he

/-- The history of a block that fell into FAULTED need only be readable. -/
theorem inOrder_of_faulted {b : Block} (hp : b.phase = .faulted) (hr : readHistory prm b.trace = some h) :
    InOrder prm b :=
  ⟨h, hr, by simp [Agrees, hp]⟩

end

section
variable {s : State}

/-- What a history in order says of a block in a known phase. -/
theorem HistoryOk.agrees (hh : HistoryOk s) {ph : Phase} (hp : s.block.phase = ph) :
    ∃ h, readHistory s.params s.block.trace = some h ∧ Agrees { s.block with phase := ph } h := by
  subst hp
  exact hh

theorem HistoryOk.raiseFault (hh : HistoryOk s) (k : FaultKind) : InOrder s.params (raiseFault k s).block := by
  obtain ⟨h, hr, _⟩ := hh
  exact inOrder_of_faulted rfl hr

/-! ### The operations -/

/-- INIT's six events after an empty history (44_lifecycle R190). -/
theorem readHistory_init (prm : Params) (arg : Byte) :
    readHistory prm [.req opInit arg, .xen 0#1, .cs 1#1, .xcfg (initCfg prm), .xen 1#1, .done .ok] =
      some (.ready prm.initTap) := by
  simp [readHistory, Stand.read, opInit, initCfg, Config.xportWordBits]

theorem inOrder_initFields (hi : Inv s) (hp : s.block.phase = .uninit) (arg : Byte) :
    InOrder s.params (initFields arg s).block := by
  rw [initFields_eq, hi.fresh hp]
  exact ⟨_, readHistory_init s.params arg, _, rfl, rfl⟩

/-- A block in IDLE stands ready with the tap its wiper holds. -/
theorem HistoryOk.ready (hh : HistoryOk s) (hp : s.block.phase = .idle) :
    ∃ p, readHistory s.params s.block.trace = some (.ready p) ∧ s.block.wiper = some p := by
  obtain ⟨_, hr, p, rfl, hw⟩ := hh.agrees hp
  exact ⟨p, hr, hw⟩

/-- An operation that is one transaction leaves the history at its request, with the expected word latched. -/
theorem inOrder_txnStart {p q arg payload : Byte} {op : OpField} {opc : Opcode}
    (hr : readHistory s.params s.block.trace = some (.ready p)) (hw : s.block.wiper = some p)
    (hop : 2 ≤ op.toNat ∧ op.toNat ≤ 6) (he : expected p op arg = some (q, encodeCommand opc payload))
    (hq : opc = .shutdown ∧ q = p ∨ opc = .write ∧ payload = q) :
    InOrder s.params (txnStart opc payload (emit (.req op arg) s)).block :=
  ⟨.asked p op arg, readHistory_snoc hr (if_pos hop), p, op, arg, q, _, rfl, hw, he, rfl, by simpa using hq⟩

/-- A move whose rule gives no word completes with REJECTED (42_wiper_bounds R152). -/
theorem read_rejected {p arg : Byte} {op : OpField} (hop : op = 0b100#3 ∨ op = 0b101#3)
    (he : expected p op arg = none) :
    (Stand.asked p op arg).read s.params (.done .rejected) = some (.ready p) :=
  if_pos ⟨hop, he⟩

/-- An operation that completes where it is accepted leaves the shadow and the history's stand as they were. -/
theorem inOrder_completed {p arg : Byte} {op : OpField} {st : Status} {b : Block}
    (hr : readHistory s.params s.block.trace = some (.ready p)) (hop : 2 ≤ op.toNat ∧ op.toNat ≤ 6)
    (hdone : (Stand.asked p op arg).read s.params (.done st) = some (.ready p))
    (ht : b.trace = s.block.trace ++ [.req op arg] ++ [.done st]) (hp : b.phase = .idle) (hw : b.wiper = some p) :
    InOrder s.params b := by
  refine ⟨.ready p, ?_, ?_⟩
  · rw [ht]
    exact readHistory_snoc (readHistory_snoc hr (if_pos hop)) hdone
  · simp [Agrees, hp, hw]

theorem inOrder_accepted (hh : HistoryOk s) (hp : s.block.phase = .idle) {i : Instr} {t : State}
    (ha : Accepted s i t) : InOrder s.params t.block := by
  obtain ⟨p, hr, hw⟩ := hh.ready hp
  cases ha with
  | write tap => exact inOrder_txnStart hr hw (by decide) (expected_write p tap) (.inr ⟨rfl, rfl⟩)
  | shutdown payload => exact inOrder_txnStart hr hw (by decide) (expected_shutdown p payload) (.inl ⟨rfl, rfl⟩)
  | incresUndef | decresUndef | getresUndef => exact hh.raiseFault _
  | incres delta p' hw' hd =>
    obtain rfl : p = p' := Option.some.inj (hw.symm.trans hw')
    exact inOrder_txnStart hr hw (by decide) (expected_incres hd) (.inr ⟨rfl, rfl⟩)
  | decres delta p' hw' hd =>
    obtain rfl : p = p' := Option.some.inj (hw.symm.trans hw')
    exact inOrder_txnStart hr hw (by decide) (expected_decres hd) (.inr ⟨rfl, rfl⟩)
  | incresReject delta p' hw' hd =>
    obtain rfl : p = p' := Option.some.inj (hw.symm.trans hw')
    exact inOrder_completed hr (by decide) (read_rejected (.inl rfl) (expected_incres_reject hd)) rfl rfl hw
  | decresReject delta p' hw' hd =>
    obtain rfl : p = p' := Option.some.inj (hw.symm.trans hw')
    exact inOrder_completed hr (by decide) (read_rejected (.inr rfl) (expected_decres_reject hd)) rfl rfl hw
  | getres arg => exact inOrder_completed hr (by decide) rfl rfl rfl hw

/-! ### The phases of a transaction -/

theorem inOrder_csAssert (hh : HistoryOk s) (hp : s.block.phase = .csAssert) : InOrder s.params (csAssert s).block := by
  obtain ⟨_, hr, p, op, arg, q, w, rfl, hw, hexp, hlatch⟩ := hh.agrees hp
  have hopen : (Stand.asked p op arg).read s.params (.cs 0#1) = some (.framed p op arg) :=
    if_pos ⟨rfl, by rw [hexp]; rfl⟩
  exact ⟨.framed p op arg, readHistory_snoc hr hopen, p, op, arg, q, w, rfl, hw, hexp, hlatch⟩

/-- A failed poll stays where it is, or closes the frame in a history that may end there (60_exceptions R205). -/
theorem inOrder_failedPoll (hh : HistoryOk s) (hp : s.block.phase = .waitTx ∨ s.block.phase = .waitRx) (n : Nat) :
    InOrder s.params (failedPoll n s).block := by
  rcases failedPoll_block n s with e | e <;> rw [e]
  · exact hh
  rcases hp with hp | hp
  · obtain ⟨_, hr, p, op, arg, q, w, rfl, _⟩ := hh.agrees hp
    exact inOrder_of_faulted rfl (readHistory_snoc hr (h' := .aborted) rfl)
  · obtain ⟨_, hr, p, q, rfl, _⟩ := hh.agrees hp
    exact inOrder_of_faulted rfl (readHistory_snoc hr (h' := .closed p q) rfl)

theorem inOrder_submit (hh : HistoryOk s) (hp : s.block.phase = .submit) : InOrder s.params (submit s).block := by
  obtain ⟨_, hr, p, op, arg, q, w, rfl, hw, hexp, hword, hlatch⟩ := hh.agrees hp
  rw [submit_some hword]
  exact ⟨.sent p q, readHistory_snoc hr (by simp [Stand.read, hexp]), p, q, rfl, hw, hlatch⟩

theorem inOrder_csDeassert (hh : HistoryOk s) (hp : s.block.phase = .csDeassert) :
    InOrder s.params (csDeassert s).block := by
  obtain ⟨_, hr, p, q, rfl, hrest⟩ := hh.agrees hp
  exact ⟨.closed p q, readHistory_snoc hr rfl, p, q, rfl, hrest⟩

theorem inOrder_drain (hh : HistoryOk s) (hp : s.block.phase = .drain) : InOrder s.params (drain s).block := by
  obtain ⟨_, hr, p, q, rfl, hrest⟩ := hh.agrees hp
  exact ⟨.drained p q, readHistory_snoc hr rfl, p, q, rfl, hrest⟩

/-- COMMIT writes the tap that the history says the operation leads to (41_transaction_sequencer R128, R136). -/
theorem inOrder_commit (hh : HistoryOk s) (hp : s.block.phase = .commit) : InOrder s.params (commit s).block := by
  obtain ⟨_, hr, p, q, rfl, hw, ⟨hopc, rfl⟩ | ⟨hopc, hpay⟩⟩ := hh.agrees hp
  · rw [commit_shutdown hopc]
    exact ⟨.ready q, readHistory_snoc hr rfl, q, rfl, hw⟩
  · rw [commit_write hopc hpay]
    exact ⟨.ready q, readHistory_snoc hr rfl, q, rfl, rfl⟩

/-! ### Every step -/

/-- A wait that the transport lifts leads to a phase with the same stand; the other effects add their events. -/
theorem inOrder_of_blockEffect (hi : Inv s) (hh : HistoryOk s) {b : Block}
    (he : BlockEffect s b) : InOrder s.params b := by
  cases he with
  | same => exact hh
  | reset => exact ⟨.fresh, rfl, rfl⟩
  | requestFault _ _ k => exact hh.raiseFault k
  | init arg _ _ hp => exact inOrder_initFields hi hp arg
  | accepted _ _ _ _ _ hp _ ha => exact inOrder_accepted hh hp ha
  | csAssert hp => exact inOrder_csAssert hh hp
  | waitTx hp => exact (hh.agrees hp :)
  | failedPoll n hp => exact inOrder_failedPoll hh hp n
  | submit hp => exact inOrder_submit hh hp
  | waitRx hp => exact (hh.agrees hp :)
  | csDeassert hp => exact inOrder_csDeassert hh hp
  | drain hp => exact inOrder_drain hh hp
  | commit hp => exact inOrder_commit hh hp

end

/-- Settles O46: whatever a step does to the block, the events it adds are read from where the history stood, and no
step writes the parameters the reading depends on. -/
theorem everyStepKeepsTheHistoryInOrder : Obligations.EveryStepKeepsTheHistoryInOrder := by
  intro s t hi hh hst
  rw [historyOk_iff, parametersNeverChange s t hst]
  exact inOrder_of_blockEffect hi hh (step_effect hst)

end Sys2Proof.Safety

/-! The transport's word (20_memory): its order on the bus (R51), its pairing with a `TX` (R56), and that its received
value reaches nothing (R57). -/

namespace Sys2Proof.Machine

open Sys2Proof.Safety

/-! ### The order of the bits on the bus (20_memory R51) -/

theorem wireBits_getElem? (w : CmdWord) {i : Nat} (hi : i < 16) : (wireBits w)[i]? = some (w.getLsbD (15 - i)) := by
  simp [wireBits, hi]

/-- A byte's bits, most significant first, are eight bits of the word from the byte's upper end down. -/
theorem byteBits_eq (w : CmdWord) (lo : Nat) :
    ((List.range 8).map fun i => (w.extractLsb' lo 8).getLsbD (7 - i)) =
      (List.range 8).map fun i => w.getLsbD (lo + (7 - i)) := by
  refine List.map_congr_left fun i _ => ?_
  have hi : 7 - i < 8 := by omega
  simp [hi]

/-- The word's bits are those of its command byte and then those of its data byte. -/
theorem wireBits_eq_flatMap (w : CmdWord) :
    wireBits w = (wireBytes w).flatMap fun b => (List.range 8).map fun i => b.getLsbD (7 - i) := by
  simp only [wireBytes, List.flatMap_cons, List.flatMap_nil, List.append_nil, byteBits_eq]
  rfl

/-- Settles O6: the sixteen bits are listed from bit 15 down, and the two bytes' lists are their halves. -/
theorem wireOrderIsMostSignificantFirst : Obligations.WireOrderIsMostSignificantFirst := fun w =>
  ⟨by simp [wireBits], fun _ hi => wireBits_getElem? w hi, wireBits_eq_flatMap w⟩

/-! ### A received word is paired with a `TX` (20_memory R56) -/

theorem step_receive_unpaired {s : State} {w : CmdWord} {rest : List Input} (h : s.inputs = .receive w :: rest)
    (ho : s.transport.rxOwed = false) : step s = .refused .unpairedReceive := by
  simp [step, nextAct, h, takeInput, receiveWord, ho]

/-- Settles O37: the delivery is taken while one is owed, and refused otherwise. -/
theorem receivedWordIsPairedWithATx : Obligations.ReceivedWordIsPairedWithATx := by
  intro s w rest hi
  cases ho : s.transport.rxOwed with
  | true => exact step_receive hi ho
  | false => exact step_receive_unpaired hi ho

/-! ### The received value reaches nothing (20_memory R57, 41_transaction_sequencer R129) -/

/-- A map of the next state of an outcome; a fault or a refusal is as it was. -/
def mapNext (f : State → State) : Result → Result
  | .next s => .next (f s)
  | .fault r => .fault r
  | .refused r => .refused r

section
variable (v : CmdWord) (s : State)

@[simp] theorem withRxWord_block : (withRxWord v s).block = s.block := rfl
@[simp] theorem withRxWord_params : (withRxWord v s).params = s.params := rfl
@[simp] theorem withRxWord_device : (withRxWord v s).device = s.device := rfl
@[simp] theorem withRxWord_inputs : (withRxWord v s).inputs = s.inputs := rfl

/-! Each operation commutes with another received word on the transport. -/

theorem onRequest_withRxWord (op : OpField) {g : State → State} (hg : g (withRxWord v s) = withRxWord v (g s)) :
    onRequest op (withRxWord v s) g = mapNext (withRxWord v) (onRequest op s g) := by
  unfold onRequest
  rw [withRxWord_block, hg]
  split
  · rfl
  · split <;> rfl

theorem incresAccepted_withRxWord (delta : Byte) :
    incresAccepted delta (withRxWord v s) = withRxWord v (incresAccepted delta s) := by
  unfold incresAccepted
  rw [withRxWord_block]
  cases s.block.wiper with
  | none => rfl
  | some p =>
    simp only [withValue_some]
    split <;> rfl

theorem decresAccepted_withRxWord (delta : Byte) :
    decresAccepted delta (withRxWord v s) = withRxWord v (decresAccepted delta s) := by
  unfold decresAccepted
  rw [withRxWord_block]
  cases s.block.wiper with
  | none => rfl
  | some p =>
    simp only [withValue_some]
    split <;> rfl

theorem getresAccepted_withRxWord (arg : Byte) :
    getresAccepted arg (withRxWord v s) = withRxWord v (getresAccepted arg s) := by
  unfold getresAccepted
  rw [withRxWord_block]
  cases s.block.wiper <;> rfl

theorem exec_withRxWord (i : Instr) : exec i (withRxWord v s) = mapNext (withRxWord v) (exec i s) := by
  cases i with
  | reserved000 => exact onRequest_withRxWord v s 0b000#3 (g := fun s => s) rfl
  | reserved111 => exact onRequest_withRxWord v s 0b111#3 (g := fun s => s) rfl
  | init | write | shutdown => exact onRequest_withRxWord v s _ rfl
  | incres delta => exact onRequest_withRxWord v s _ (incresAccepted_withRxWord v s delta)
  | decres delta => exact onRequest_withRxWord v s _ (decresAccepted_withRxWord v s delta)
  | getres arg => exact onRequest_withRxWord v s _ (getresAccepted_withRxWord v s arg)
  | cmdNop00 | cmdWritePot0 | cmdWriteNopot | cmdShutdownPot0 | cmdShutdownNopot | cmdNop11 => rfl

theorem abortFrame_withRxWord : abortFrame (withRxWord v s) = withRxWord v (abortFrame s) := by
  unfold abortFrame
  rw [withRxWord_device]
  split <;> rfl

theorem failedPoll_withRxWord (n : Nat) : failedPoll n (withRxWord v s) = withRxWord v (failedPoll n s) := by
  have habort := congrArg (raiseFault .xportTimeout) (abortFrame_withRxWord v (driveCs 1#1 s))
  rcases failedPoll_cases n s with ⟨hlt, e⟩ | ⟨hle, e⟩ <;> rw [e]
  · exact if_pos hlt
  · exact (if_neg (Nat.not_lt.2 hle)).trans habort

theorem awaitPhase_withRxWord (ready : Bool) (next : Phase) :
    awaitPhase ready next (withRxWord v s) = mapNext (withRxWord v) (awaitPhase ready next s) := by
  unfold awaitPhase
  simp only [withRxWord_params, failedPoll_withRxWord]
  split
  · rfl
  · split <;> rfl

theorem submit_withRxWord : submit (withRxWord v s) = withRxWord v (submit s) := by
  unfold submit
  rw [withRxWord_block]
  cases s.block.curWord <;> rfl

theorem commit_withRxWord : commit (withRxWord v s) = withRxWord v (commit s) := by
  unfold commit
  rw [withRxWord_block]
  cases s.block.curOpc with
  | none => rfl
  | some opc =>
    cases opc with
    | write => cases s.block.curPayload <;> rfl
    | shutdown => rfl

theorem closeFrame_withRxWord : closeFrame (withRxWord v s) = mapNext (withRxWord v) (closeFrame s) := by
  unfold closeFrame
  rw [withRxWord_device]
  split
  · rfl
  · exact exec_withRxWord v { s with device := { s.device with frame := .empty } } _
  · rfl

/-- DRAIN reads the word and drops it; no phase looks at it (41_transaction_sequencer R126, R129). -/
theorem blockStep_withRxWord : blockStep (withRxWord v s) = mapNext (withRxWord v) (blockStep s) := by
  unfold blockStep
  rw [withRxWord_block]
  cases s.block.phase with
  | uninit | idle | csAssert | drain | faulted => rfl
  | waitTx => exact awaitPhase_withRxWord v s _ _
  | waitRx => exact awaitPhase_withRxWord v s _ _
  | submit => exact congrArg Host.Outcome.next (submit_withRxWord v s)
  | csDeassert => exact closeFrame_withRxWord v (csDeassert s)
  | commit => exact congrArg Host.Outcome.next (commit_withRxWord v s)

theorem resetBlock_withRxWord : resetBlock (withRxWord v s) = withRxWord v (resetBlock s) := by
  unfold resetBlock
  rw [withRxWord_block]
  split <;> rfl

/-- An act commutes with another received word, or is the delivery of a new one, which hides the difference. -/
theorem takeInput_withRxWord (e : Input) :
    takeInput e (withRxWord v s) = mapNext (withRxWord v) (takeInput e s) ∨
      takeInput e (withRxWord v s) = takeInput e s := by
  cases e with
  | request r => exact .inl (exec_withRxWord v s _)
  | block => exact .inl (blockStep_withRxWord v s)
  | receive w => exact .inr rfl
  | reset => exact .inl (congrArg Host.Outcome.next (resetBlock_withRxWord v s))
  | frame w => exact .inl (exec_withRxWord v s _)
  | txFree | powerUp | busError => exact .inl rfl

theorem step_withRxWord :
    step (withRxWord v s) = mapNext (withRxWord v) (step s) ∨ step (withRxWord v s) = step s := by
  unfold step nextAct
  rw [withRxWord_inputs]
  cases s.inputs with
  | nil => exact .inl (blockStep_withRxWord v s)
  | cons e rest => exact takeInput_withRxWord v { s with inputs := rest } e

end

/-- Settles O55: the step carries the other received word along, or a delivery overwrites it. -/
theorem receivedValueInfluencesNothing : Obligations.ReceivedValueInfluencesNothing := by
  intro s s' v h
  rcases step_withRxWord v s with e | e <;> rw [h] at e
  · exact ⟨withRxWord v s', e, rfl⟩
  · exact ⟨s', e, rfl⟩

end Sys2Proof.Machine

/-! A transaction under every schedule of the block and the transport (20_memory R58 to R61): what each act of such a
schedule can do, how far the transaction is in each phase, and why it comes to its end. -/

namespace Sys2Proof.Machine

/-! ### The block's step leaves the acts to come alone (log 3) -/

@[simp] theorem failedPoll_inputs (n : Nat) (s : State) : (failedPoll n s).inputs = s.inputs := by
  rcases failedPoll_cases n s with ⟨_, h⟩ | ⟨_, h⟩ <;> simp [h]

@[simp] theorem submit_inputs (s : State) : (submit s).inputs = s.inputs := by
  cases h : s.block.curWord with
  | none => rw [submit_none h, raiseFault_inputs]
  | some w => rw [submit_some h]

@[simp] theorem commit_inputs (s : State) : (commit s).inputs = s.inputs := by
  rcases commit_cases s with h | ⟨_, h⟩ | ⟨p, _, _, h⟩ <;> simp [h]

theorem blockStep_inputs {s t : State} (h : blockStep s = .next t) : t.inputs = s.inputs := by
  rcases blockStep_cases h with ⟨_, rfl⟩ | ⟨_, _, rfl⟩ | ⟨_, _, n, _, rfl⟩ | ⟨_, rfl⟩ | ⟨_, _, rfl⟩ |
    ⟨_, _, n, _, rfl⟩ | ⟨_, hc⟩ | ⟨_, rfl⟩ | ⟨_, rfl⟩
  case inr.inr.inr.inr.inr.inr.inl =>
    obtain ⟨_, _, _, hinputs, _⟩ := closeFrame_frame hc
    exact hinputs
  all_goals simp

/-- The block has a step in the transaction phases only (10_state R24, R25). -/
theorem blockStep_isTransaction {s t : State} (h : blockStep s = .next t) : s.block.phase.isTransaction = true := by
  rcases blockStep_cases h with ⟨hp, _⟩ | ⟨hp, _⟩ | ⟨hp, _⟩ | ⟨hp, _⟩ | ⟨hp, _⟩ | ⟨hp, _⟩ | ⟨hp, _⟩ | ⟨hp, _⟩ |
    ⟨hp, _⟩ <;> rw [hp] <;> rfl

/-! ### The phases that emit one event, as the block sees them -/

theorem csAssert_block (s : State) :
    (csAssert s).block =
      { s.block with csN := some 0#1, pollCount := 0, phase := .waitTx, trace := s.block.trace ++ [.cs 0#1] } := rfl

theorem csDeassert_block (s : State) :
    (csDeassert s).block =
      { s.block with csN := some 1#1, phase := .drain, trace := s.block.trace ++ [.cs 1#1] } := rfl

theorem drain_block (s : State) :
    (drain s).block = { s.block with phase := .commit, trace := s.block.trace ++ [.rxDrain] } := rfl

end Sys2Proof.Machine

namespace Sys2Proof.Safety

open Sys2Proof.Machine

/-! ### A step of a schedule of block and transport -/

section
variable {s t : State}

/-- Every step of a schedule of block and transport: the block's own, with the schedule's next act used up; an act
that leaves the block alone; or the delivery of a word that is not owed, which is refused. -/
theorem step_quiet_cases (hq : s.inputs.all isQuiet = true) :
    step s = blockStep { s with inputs := s.inputs.tail } ∨
    (s.inputs ≠ [] ∧ ∃ t, step s = .next t ∧ t.block = s.block ∧ t.inputs = s.inputs.tail) ∨
    step s = .refused .unpairedReceive := by
  cases hi : s.inputs with
  | nil =>
    have hs : s = { s with inputs := [] } := by rw [← hi]
    exact .inl ((step_nil hi).trans (congrArg blockStep hs))
  | cons e rest =>
    rw [hi, List.all_cons, Bool.and_eq_true] at hq
    obtain ⟨he, _⟩ := hq
    cases e with
    | block => exact .inl (step_block hi)
    | txFree b => exact .inr (.inl ⟨List.cons_ne_nil _ _, _, step_txFree hi, rfl, rfl⟩)
    | receive w =>
      cases ho : s.transport.rxOwed with
      | true => exact .inr (.inl ⟨List.cons_ne_nil _ _, _, step_receive hi ho, rfl, rfl⟩)
      | false => exact .inr (.inr (step_receive_unpaired hi ho))
    | busError => exact .inr (.inl ⟨List.cons_ne_nil _ _, _, step_busError hi, rfl, rfl⟩)
    | request | reset | powerUp | frame => cases he

/-- The same for a step that answers a next state. -/
theorem step_quiet_next (hq : s.inputs.all isQuiet = true) (h : step s = .next t) :
    t.inputs = s.inputs.tail ∧
      (blockStep { s with inputs := s.inputs.tail } = .next t ∨ s.inputs ≠ [] ∧ t.block = s.block) := by
  rcases step_quiet_cases hq with e | ⟨hne, u, e, hblock, hinputs⟩ | e <;> rw [h] at e
  · exact ⟨blockStep_inputs e.symm, .inl e.symm⟩
  · cases e
    exact ⟨hinputs, .inr ⟨hne, hblock⟩⟩
  · cases e

theorem step_quiet_inputs (hq : s.inputs.all isQuiet = true) (h : step s = .next t) :
    t.inputs.all isQuiet = true := by
  obtain ⟨hinputs, _⟩ := step_quiet_next hq h
  rw [hinputs]
  exact List.all_eq_true.2 fun e he => List.all_eq_true.1 hq e (List.mem_of_mem_tail he)

end

/-! ### How far a transaction is -/

/-- How many of its frame's events a transaction has emitted when it enters a phase (41_transaction_sequencer
R134). -/
def eventsBefore : Phase → Nat
  | .csAssert => 0
  | .waitTx => 1
  | .submit => 1
  | .waitRx => 2
  | .csDeassert => 2
  | .drain => 3
  | .commit => 4
  | .uninit => 0
  | .idle => 0
  | .faulted => 0

theorem eventsBefore_lt (ph : Phase) : eventsBefore ph < 5 := by
  cases ph <;> decide

/-- The block of a transaction that began in `b` with the word `w`, once it is in phase `ph`: besides the phase, the
line and the poll counter only the history has moved (41_transaction_sequencer R136). -/
def midway (b : Block) (w : CmdWord) (ph : Phase) (cs : Option Bit) (polls : Nat) : Block :=
  { b with
    phase := ph
    csN := cs
    pollCount := polls
    trace := b.trace ++ (frameEvents w).take (eventsBefore ph) }

/-- Where a transaction that began in the block `b₀` may have brought it. -/
inductive TxnReaches (prm : Params) (b₀ : Block) (opc : Opcode) (payload : Byte) (b : Block) : Prop where
  | underWay (ph : Phase) (cs : Option Bit) (polls : Nat) : ph.isTransaction = true →
      b = midway b₀ (encodeCommand opc payload) ph cs polls → TxnReaches prm b₀ opc payload b
  | complete : b.phase = .idle → b.status = some .ok →
      b.wiper = (if opc = .write then some payload else b₀.wiper) →
      b.trace = b₀.trace ++ frameEvents (encodeCommand opc payload) → TxnReaches prm b₀ opc payload b
  | timedOut (n : Nat) : b.phase = .faulted → b.wiper = b₀.wiper → b.status = b₀.status →
      prm.xportTimeout = some n → b.faults = b₀.faults.insert .xportTimeout → TxnReaches prm b₀ opc payload b

section
variable {s t : State} {b₀ : Block} {opc : Opcode} {payload : Byte} {ph : Phase} {cs : Option Bit} {polls : Nat}

/-- A failed poll counts, or aborts the frame: nothing else of the transaction moves (60_exceptions R205). -/
theorem txnReaches_failedPoll (hph : ph.isTransaction = true)
    (hb : s.block = midway b₀ (encodeCommand opc payload) ph cs polls) {n : Nat}
    (hn : s.params.xportTimeout = some n) : TxnReaches s.params b₀ opc payload (failedPoll n s).block := by
  rcases failedPoll_block n s with e | e <;> rw [e, hb]
  · exact .underWay ph cs (polls + 1) hph rfl
  · exact .timedOut n rfl rfl rfl hn rfl

/-- COMMIT completes the transaction, and writes the shadow for WRITE alone (41_transaction_sequencer R128, R136). -/
theorem txnReaches_commit (hopc : b₀.curOpc = some opc) (hpay : b₀.curPayload = some payload)
    (hb : s.block = midway b₀ (encodeCommand opc payload) .commit cs polls) :
    TxnReaches s.params b₀ opc payload (commit s).block := by
  have ho : s.block.curOpc = some opc := by rw [hb]; exact hopc
  have hp : s.block.curPayload = some payload := by rw [hb]; exact hpay
  have htrace : s.block.trace ++ [.done .ok] = b₀.trace ++ frameEvents (encodeCommand opc payload) := by
    simp [hb, midway, frameEvents, eventsBefore]
  cases opc with
  | write =>
    rw [commit_write ho hp]
    exact .complete rfl rfl rfl htrace
  | shutdown =>
    rw [commit_shutdown ho]
    exact .complete rfl rfl (by rw [done_wiper, hb]; rfl) htrace

/-- Each step of the block takes a transaction to its next phase with that phase's events, or to one of its ends. -/
theorem txnReaches_blockStep (hopc : b₀.curOpc = some opc) (hpay : b₀.curPayload = some payload)
    (hword : b₀.curWord = some (encodeCommand opc payload))
    (hb : s.block = midway b₀ (encodeCommand opc payload) ph cs polls) (he : blockStep s = .next t) :
    TxnReaches s.params b₀ opc payload t.block := by
  have hph : s.block.phase = ph := by rw [hb]; rfl
  rcases blockStep_cases he with ⟨hp, rfl⟩ | ⟨hp, _, rfl⟩ | ⟨hp, _, n, hn, rfl⟩ | ⟨hp, rfl⟩ | ⟨hp, _, rfl⟩ |
    ⟨hp, _, n, hn, rfl⟩ | ⟨hp, hc⟩ | ⟨hp, rfl⟩ | ⟨hp, rfl⟩ <;> obtain rfl := hph.symm.trans hp
  · rw [csAssert_block, hb]
    exact .underWay .waitTx (some 0#1) 0 rfl (by simp [midway, frameEvents, eventsBefore])
  · rw [hb]
    exact .underWay .submit cs polls rfl rfl
  · exact txnReaches_failedPoll rfl hb hn
  · rw [submit_some (by rw [hb]; exact hword), hb]
    exact .underWay .waitRx cs 0 rfl (by simp [midway, frameEvents, eventsBefore])
  · rw [hb]
    exact .underWay .csDeassert cs polls rfl rfl
  · exact txnReaches_failedPoll rfl hb hn
  · obtain ⟨hblock, _⟩ := closeFrame_frame hc
    rw [hblock, csDeassert_block, hb]
    exact .underWay .drain (some 1#1) polls rfl (by simp [midway, frameEvents, eventsBefore])
  · rw [drain_block, hb]
    exact .underWay .commit cs polls rfl (by simp [midway, frameEvents, eventsBefore])
  · exact txnReaches_commit hopc hpay hb

end

/-- What a run of a schedule of block and transport keeps, from a state `s` in CS_ASSERT. -/
structure TxnRun (s : State) (opc : Opcode) (payload : Byte) (u : State) : Prop where
  quiet : u.inputs.all isQuiet = true
  params : u.params = s.params
  reaches : TxnReaches s.params s.block opc payload u.block

section
variable {s : State} {opc : Opcode} {payload : Byte}

/-- A transaction that has come to one of its ends stays there. -/
theorem TxnRun.after_step {u v : State} (hopc : s.block.curOpc = some opc) (hpay : s.block.curPayload = some payload)
    (hword : s.block.curWord = some (encodeCommand opc payload)) (h : TxnRun s opc payload u)
    (hst : step u = .next v) : TxnRun s opc payload v := by
  refine ⟨step_quiet_inputs h.quiet hst, (parametersNeverChange u v hst).trans h.params, ?_⟩
  obtain ⟨_, he | ⟨_, hblock⟩⟩ := step_quiet_next h.quiet hst
  · have hp : u.block.phase.isTransaction = true := (blockStep_isTransaction he :)
    cases h.reaches with
    | underWay ph cs polls _ hb =>
      rw [← h.params]
      exact txnReaches_blockStep (s := { u with inputs := u.inputs.tail }) hopc hpay hword hb he
    | complete hidle => simp [hidle, Phase.isTransaction] at hp
    | timedOut _ hfaulted => simp [hfaulted, Phase.isTransaction] at hp
  · exact hblock ▸ h.reaches

/-- At its start a transaction has emitted nothing. -/
theorem txnRun_start (hp : s.block.phase = .csAssert) (hq : s.inputs.all isQuiet = true) : TxnRun s opc payload s where
  quiet := hq
  params := rfl
  reaches := .underWay .csAssert s.block.csN s.block.pollCount rfl (by simp [midway, eventsBefore, ← hp])

end

/-- Settles O42: every step of the schedule keeps `TxnRun`, whose three cases are the three outcomes. -/
theorem transactionUnderEverySchedule : Obligations.TransactionUnderEverySchedule := by
  intro s t opc payload k hi hp hopc hpay hq hrun
  obtain ⟨opc', payload', hopc', hpay', hword⟩ := hi.latch (by rw [hp]; rfl)
  obtain rfl : opc = opc' := Option.some.inj (hopc.symm.trans hopc')
  obtain rfl : payload = payload' := Option.some.inj (hpay.symm.trans hpay')
  have hend : TxnRun s opc payload t :=
    run_keeps (fun _ _ h hst => h.after_step hopc hpay hword hst) (txnRun_start hp hq) hrun
  cases hend.reaches with
  | underWay ph cs polls hph hb =>
    rw [hb]
    refine .inl ⟨hph, rfl, rfl, _, rfl, ?_, List.take_prefix _ _⟩
    exact (List.length_take_le _ _).trans_lt (eventsBefore_lt ph)
  | complete hidle hstatus hwiper htrace => exact .inr (.inl ⟨hidle, hstatus, hwiper, htrace⟩)
  | timedOut n hfaulted hwiper hstatus hn hfaults =>
    exact .inr (.inr ⟨hfaulted, hwiper, hstatus, ⟨n, hn⟩, hfaults⟩)

/-! ### The block is stuck in an unanswered wait only (70_reset_and_hazards R242) -/

/-- The device reads every word the encoder makes (40_command_encoder R108). -/
theorem deviceReads_encodeCommand (opc : Opcode) (p : Byte) (s : State) :
    ∃ t, deviceReads (encodeCommand opc p) s = .next t := by
  unfold deviceReads
  rw [decodeCmd_encodeCommand]
  cases opc <;> exact ⟨_, rfl⟩

/-- A wait phase is left, counted or held. -/
theorem awaitPhase_next_or_held (ready : Bool) (ph : Phase) (s : State) :
    (∃ t, awaitPhase ready ph s = .next t) ∨
      (awaitPhase ready ph s = .fault .held ∧ s.params.xportTimeout = none ∧ ready = false) := by
  rcases awaitPhase_cases ready ph s with ⟨_, e⟩ | ⟨hr, hn, e⟩ | ⟨_, n, _, e⟩
  · exact .inl ⟨_, e⟩
  · exact .inr ⟨e, hn, hr⟩
  · exact .inl ⟨_, e⟩

section
variable {s t : State}

/-- At the closing edge the frame carries the latched command or was spoiled, so that the device refuses nothing. -/
theorem Inv.closeFrame_next (h : Inv s) (hp : s.block.phase = .csDeassert) :
    ∃ t, closeFrame (csDeassert s) = .next t := by
  obtain ⟨opc, p, _, _, hword⟩ := h.latch (by rw [hp]; rfl)
  have hf := h.frame
  simp only [FrameOk, hp] at hf
  unfold closeFrame
  rw [csDeassert_device]
  rcases hf with ⟨w, hw, hf⟩ | hf <;> rw [hf]
  · obtain rfl : encodeCommand opc p = w := Option.some.inj (hword.symm.trans hw)
    exact deviceReads_encodeCommand opc p _
  · exact ⟨_, rfl⟩

/-- In a transaction phase the block has a step, or awaits a transport that has not answered. -/
theorem Inv.blockStep_next_or_held (h : Inv s) (hp : s.block.phase.isTransaction = true) :
    (∃ t, blockStep s = .next t) ∨
      (blockStep s = .fault .held ∧ s.params.xportTimeout = none ∧
        (s.block.phase = .waitTx ∧ s.transport.txFree = false ∨
          s.block.phase = .waitRx ∧ s.transport.rxAvail = false)) := by
  unfold blockStep
  cases hph : s.block.phase with
  | uninit | idle | faulted => simp [hph, Phase.isTransaction] at hp
  | csAssert | submit | drain | commit => exact .inl ⟨_, rfl⟩
  | csDeassert => exact .inl (h.closeFrame_next hph)
  | waitTx =>
    refine (awaitPhase_next_or_held s.transport.txFree .submit s).imp_right ?_
    exact fun ⟨e, hn, hr⟩ => ⟨e, hn, .inl ⟨rfl, hr⟩⟩
  | waitRx =>
    refine (awaitPhase_next_or_held s.transport.rxAvail .csDeassert s).imp_right ?_
    exact fun ⟨e, hn, hr⟩ => ⟨e, hn, .inr ⟨rfl, hr⟩⟩

/-! ### A live transport brings every transaction to its end (20_memory R58) -/

/-- How many phases a transaction has before it (41_transaction_sequencer R127). -/
def phasesLeft : Phase → Nat
  | .csAssert => 7
  | .waitTx => 6
  | .submit => 5
  | .waitRx => 4
  | .csDeassert => 3
  | .drain => 2
  | .commit => 1
  | .uninit => 0
  | .idle => 0
  | .faulted => 0

/-- The fixed order of the phases leads out of COMMIT to IDLE, and elsewhere nearer to COMMIT. -/
theorem nextPhase_cases {ph : Phase} (h : ph.isTransaction = true) :
    ph = .commit ∨ ((nextPhase ph).isTransaction = true ∧ phasesLeft (nextPhase ph) < phasesLeft ph) := by
  cases ph with
  | uninit | idle | faulted => cases h
  | commit => exact .inl rfl
  | csAssert | waitTx | submit | waitRx | csDeassert | drain => exact .inr (by decide)

/-- Without a timeout the block's step goes to the next phase, and COMMIT's completes with OK. -/
theorem Inv.blockStep_advances (h : Inv s) (hn : s.params.xportTimeout = none) (he : blockStep s = .next t) :
    t.block.phase = nextPhase s.block.phase ∧ (s.block.phase = .commit → t.block.status = some .ok) := by
  obtain ⟨opc, p, hopc, hpay, hword⟩ := h.latch (blockStep_isTransaction he)
  rcases blockStep_cases he with ⟨hp, rfl⟩ | ⟨hp, _, rfl⟩ | ⟨hp, _, n, hn', _⟩ | ⟨hp, rfl⟩ | ⟨hp, _, rfl⟩ |
    ⟨hp, _, n, hn', _⟩ | ⟨hp, hc⟩ | ⟨hp, rfl⟩ | ⟨hp, rfl⟩ <;> rw [hp]
  · exact ⟨rfl, nofun⟩
  · exact ⟨rfl, nofun⟩
  · simp [hn] at hn'
  · exact ⟨by rw [submit_some hword]; rfl, nofun⟩
  · exact ⟨rfl, nofun⟩
  · simp [hn] at hn'
  · obtain ⟨hblock, _⟩ := closeFrame_frame hc
    exact ⟨by rw [hblock]; rfl, nofun⟩
  · exact ⟨rfl, nofun⟩
  · cases opc with
    | write => exact ⟨by rw [commit_write hopc hpay]; rfl, fun _ => by rw [commit_write hopc hpay]; rfl⟩
    | shutdown => exact ⟨by rw [commit_shutdown hopc]; rfl, fun _ => by rw [commit_shutdown hopc]; rfl⟩

/-- The premises under which a transaction comes to its end, as the run carries them along (log 28). -/
structure Unhindered (s : State) : Prop where
  inv : Inv s
  noTimeout : s.params.xportTimeout = none
  quiet : s.inputs.all isQuiet = true
  live : XportLive s
  keepsT2 : TransportKeepsT2 s

theorem Unhindered.after_step (h : Unhindered s) (hst : step s = .next t) : Unhindered t where
  inv := everyStepKeepsTheInvariant s t h.inv hst
  noTimeout := by rw [parametersNeverChange s t hst, h.noTimeout]
  quiet := step_quiet_inputs h.quiet hst
  live k u hk := h.live (k + 1) u (by rw [run_succ k hst, hk])
  keepsT2 k r hk := h.keepsT2 (k + 1) r (by rw [run_succ k hst, hk])

/-- A run that stops at its first step stays where it is. -/
theorem eq_of_run_of_fault {k : Nat} {u : State} {r : Fault} (hst : step s = .fault r)
    (hk : runSteps k s = .next u) : u = s := by
  cases k with
  | zero =>
    cases hk
    rfl
  | succ k => simp [runSteps, hst] at hk

/-- A block held in a wait would never see the answer that a live transport gives. -/
theorem Unhindered.step_ne_fault (h : Unhindered s) (r : Fault)
    (hwait : s.block.phase = .waitTx ∧ s.transport.txFree = false ∨
      s.block.phase = .waitRx ∧ s.transport.rxAvail = false) : step s ≠ .fault r := by
  intro hst
  obtain ⟨htx, hrx⟩ := h.live 0 s rfl
  rcases hwait with ⟨hp, hno⟩ | ⟨hp, hno⟩
  · obtain ⟨j, u, hj, hyes⟩ := htx hp
    simp [eq_of_run_of_fault hst hj, hno] at hyes
  · obtain ⟨j, u, hj, hyes⟩ := hrx hp
    simp [eq_of_run_of_fault hst hj, hno] at hyes

theorem Unhindered.exists_step (h : Unhindered s) (hp : s.block.phase.isTransaction = true) :
    ∃ t, step s = .next t := by
  rcases step_quiet_cases h.quiet with e | ⟨_, t, e, _⟩ | e
  · rcases (h.inv.withInputs s.inputs.tail).blockStep_next_or_held hp with ⟨t, hb⟩ | ⟨hb, _, hwait⟩
    · exact ⟨t, e.trans hb⟩
    · exact absurd (e.trans hb) (h.step_ne_fault _ hwait)
  · exact ⟨t, e⟩
  · exact absurd (by simp [runSteps, e]) (h.keepsT2 1 .unpairedReceive)

/-- The acts to come and the phases to go through. Every step of an unhindered transaction uses up one of them. -/
def workLeft (s : State) : Nat := s.inputs.length + phasesLeft s.block.phase

theorem Unhindered.completes_or_advances (h : Unhindered s) (hp : s.block.phase.isTransaction = true)
    (hst : step s = .next t) :
    (t.block.phase = .idle ∧ t.block.status = some .ok) ∨
      (t.block.phase.isTransaction = true ∧ workLeft t < workLeft s) := by
  obtain ⟨hinputs, he | ⟨hne, hblock⟩⟩ := step_quiet_next h.quiet hst
  · obtain ⟨hphase, hok⟩ := (h.inv.withInputs s.inputs.tail).blockStep_advances h.noTimeout he
    rcases nextPhase_cases hp with hcommit | ⟨htxn, hlt⟩
    · exact .inl ⟨by rw [hphase, hcommit]; rfl, hok hcommit⟩
    · refine .inr ⟨by rw [hphase]; exact htxn, ?_⟩
      have hlen : s.inputs.tail.length ≤ s.inputs.length := by simp
      unfold workLeft
      rw [hinputs, hphase]
      exact Nat.add_lt_add_of_le_of_lt hlen hlt
  · refine .inr ⟨by rw [hblock]; exact hp, ?_⟩
    have hlen : s.inputs.tail.length < s.inputs.length := by
      simpa using List.length_pos_iff.2 hne
    unfold workLeft
    rw [hinputs, hblock]
    exact Nat.add_lt_add_right hlen _

end

/-- An unhindered transaction completes, by recursion on the work it has left. -/
theorem Unhindered.completes {s : State} (h : Unhindered s) (hp : s.block.phase.isTransaction = true) :
    ∃ k t, runSteps k s = .next t ∧ t.block.phase = .idle ∧ t.block.status = some .ok := by
  obtain ⟨u, hst⟩ := h.exists_step hp
  rcases h.completes_or_advances hp hst with hdone | ⟨hpu, hlt⟩
  · exact ⟨1, u, run_succ 0 hst, hdone⟩
  · obtain ⟨k, t, hk, hdone⟩ := (h.after_step hst).completes hpu
    exact ⟨k + 1, t, (run_succ k hst).trans hk, hdone⟩
termination_by workLeft s

/-- Settles O43: only an unanswered wait without a timeout holds the block, and a live transport ends each wait. -/
theorem transactionHangsOnlyInAWait : Obligations.TransactionHangsOnlyInAWait := fun _ hi hp =>
  ⟨hi.blockStep_next_or_held hp, fun hn hq hlive ht2 => Unhindered.completes ⟨hi, hn, hq, hlive, ht2⟩ hp⟩

end Sys2Proof.Safety

/-! The encodings (30_encoding): a format's words and instructions determine each other (R73, R78), a word selects one row
of the opcode map (R87), a port runs what its decoder reads (R71), an assembly line spells an operation (R75 to R77),
INIT and GETRES ignore their operand (R75), and the block submits the 512 words of R84 alone. -/

namespace Sys2Proof

/-! ### The decoders as relations of words and instructions -/

theorem decode_hostop_toNat (r : ReqWord) : decode .hostop r.toNat = .ok (decodeHost r) :=
  (if_pos r.isLt).trans (by rw [BitVec.ofNat_toNat, BitVec.setWidth_eq])

theorem decode_cmd16_toNat (w : CmdWord) : decode .cmd16 w.toNat = .ok (decodeCmd w) :=
  (if_pos w.isLt).trans (by rw [BitVec.ofNat_toNat, BitVec.setWidth_eq])

/-- The numbers that are requests are the 11-bit words (30_encoding R70, R86). -/
theorem decode_hostop_eq_ok_iff {n : Nat} {i : Instr} :
    decode .hostop n = .ok i ↔ ∃ r : ReqWord, r.toNat = n ∧ decodeHost r = i := by
  constructor
  · intro h
    simp only [decode] at h
    split at h
    case isTrue hn =>
      cases h
      exact ⟨BitVec.ofNat 11 n, (BitVec.toNat_ofNat n 11).trans (Nat.mod_eq_of_lt hn), rfl⟩
    case isFalse => cases h
  · rintro ⟨r, rfl, rfl⟩
    exact decode_hostop_toNat r

/-- The numbers that are command words are the 16-bit words (30_encoding R78, R86). -/
theorem decode_cmd16_eq_ok_iff {n : Nat} {i : Instr} :
    decode .cmd16 n = .ok i ↔ ∃ w : CmdWord, w.toNat = n ∧ decodeCmd w = i := by
  constructor
  · intro h
    simp only [decode] at h
    split at h
    case isTrue hn =>
      cases h
      exact ⟨BitVec.ofNat 16 n, (BitVec.toNat_ofNat n 16).trans (Nat.mod_eq_of_lt hn), rfl⟩
    case isFalse => cases h
  · rintro ⟨w, rfl, rfl⟩
    exact decode_cmd16_toNat w

/-! ### Every instruction is the reading of its fields -/

theorem opField_cases (op : OpField) :
    op = 0 ∨ op = 1 ∨ op = 2 ∨ op = 3 ∨ op = 4 ∨ op = 5 ∨ op = 6 ∨ op = 7 := by
  revert op
  decide

/-- Every host operation is the one that its code and its operand select (30_encoding R73, R74). -/
theorem exists_hostInstr {i : Instr} (hi : i.format = .hostop) : ∃ op arg, hostInstr op arg = i := by
  cases i with
  | reserved000 arg => exact ⟨0, arg, rfl⟩
  | init arg => exact ⟨1, arg, rfl⟩
  | write tap => exact ⟨2, tap, rfl⟩
  | shutdown payload => exact ⟨3, payload, rfl⟩
  | incres delta => exact ⟨4, delta, rfl⟩
  | decres delta => exact ⟨5, delta, rfl⟩
  | getres arg => exact ⟨6, arg, rfl⟩
  | reserved111 arg => exact ⟨7, arg, rfl⟩
  | cmdNop00 | cmdWritePot0 | cmdWriteNopot | cmdShutdownPot0 | cmdShutdownNopot | cmdNop11 => cases hi

/-- Every command-word row is the one that its fields C and P0 select (30_encoding R79, R80). -/
theorem exists_cmdInstr {i : Instr} (hi : i.format = .cmd16) :
    ∃ x1 c x0 p1 p0 d, cmdInstr x1 c x0 p1 p0 d = i := by
  cases i with
  | cmdNop00 x1 x0 p1 p0 d => exact ⟨x1, 0, x0, p1, p0, d, rfl⟩
  | cmdWritePot0 x1 x0 p1 d => exact ⟨x1, 1, x0, p1, 1, d, rfl⟩
  | cmdWriteNopot x1 x0 p1 d => exact ⟨x1, 1, x0, p1, 0, d, rfl⟩
  | cmdShutdownPot0 x1 x0 p1 d => exact ⟨x1, 2, x0, p1, 1, d, rfl⟩
  | cmdShutdownNopot x1 x0 p1 d => exact ⟨x1, 2, x0, p1, 0, d, rfl⟩
  | cmdNop11 x1 x0 p1 p0 d => exact ⟨x1, 3, x0, p1, p0, d, rfl⟩
  | reserved000 | init | write | shutdown | incres | decres | getres | reserved111 => cases hi

/-- The encoder packs an operation's code and operand (30_encoding R72, R73). -/
theorem encode_hostInstr (op : OpField) (arg : Byte) : encode (hostInstr op arg) = (packHost op arg).toNat := by
  rcases opField_cases op with rfl | rfl | rfl | rfl | rfl | rfl | rfl | rfl <;> rfl

section
variable (x1 c x0 : BitVec 2) (p1 p0 : Bit) (d : Byte)

/-- What a command word selects, by C, and by P0 where C selects a write or a shutdown (30_encoding R79, R80). -/
theorem cmdInstr_cases :
    (c = 0 ∧ cmdInstr x1 c x0 p1 p0 d = .cmdNop00 x1 x0 p1 p0 d) ∨
    (c = 1 ∧ p0 = 0 ∧ cmdInstr x1 c x0 p1 p0 d = .cmdWriteNopot x1 x0 p1 d) ∨
    (c = 1 ∧ p0 = 1 ∧ cmdInstr x1 c x0 p1 p0 d = .cmdWritePot0 x1 x0 p1 d) ∨
    (c = 2 ∧ p0 = 0 ∧ cmdInstr x1 c x0 p1 p0 d = .cmdShutdownNopot x1 x0 p1 d) ∨
    (c = 2 ∧ p0 = 1 ∧ cmdInstr x1 c x0 p1 p0 d = .cmdShutdownPot0 x1 x0 p1 d) ∨
    (c = 3 ∧ cmdInstr x1 c x0 p1 p0 d = .cmdNop11 x1 x0 p1 p0 d) := by
  have hc : c = 0 ∨ c = 1 ∨ c = 2 ∨ c = 3 := by
    revert c
    decide
  have hp : p0 = 0 ∨ p0 = 1 := by
    revert p0
    decide
  rcases hc with rfl | rfl | rfl | rfl
  · exact .inl ⟨rfl, rfl⟩
  · rcases hp with rfl | rfl
    · exact .inr (.inl ⟨rfl, rfl, rfl⟩)
    · exact .inr (.inr (.inl ⟨rfl, rfl, rfl⟩))
  · rcases hp with rfl | rfl
    · exact .inr (.inr (.inr (.inl ⟨rfl, rfl, rfl⟩)))
    · exact .inr (.inr (.inr (.inr (.inl ⟨rfl, rfl, rfl⟩))))
  · exact .inr (.inr (.inr (.inr (.inr ⟨rfl, rfl⟩))))

theorem cmdInstr_format : (cmdInstr x1 c x0 p1 p0 d).format = .cmd16 := by
  rcases cmdInstr_cases x1 c x0 p1 p0 d with ⟨_, h⟩ | ⟨_, _, h⟩ | ⟨_, _, h⟩ | ⟨_, _, h⟩ | ⟨_, _, h⟩ | ⟨_, h⟩ <;>
    rw [h] <;> rfl

/-- The encoder packs a command word's six fields (30_encoding R78). -/
theorem encode_cmdInstr : encode (cmdInstr x1 c x0 p1 p0 d) = (packCmd x1 c x0 p1 p0 d).toNat := by
  rcases cmdInstr_cases x1 c x0 p1 p0 d with ⟨rfl, h⟩ | ⟨rfl, rfl, h⟩ | ⟨rfl, rfl, h⟩ | ⟨rfl, rfl, h⟩ |
    ⟨rfl, rfl, h⟩ | ⟨rfl, h⟩ <;> rw [h] <;> rfl

/-- The row's `match` is fixed by C and P0. -/
theorem rowMatch_cmdInstr : rowMatch (cmdInstr x1 c x0 p1 p0 d) = rowMatch (cmdInstr 0 c 0 0 p0 0) := by
  rcases cmdInstr_cases x1 c x0 p1 p0 d with ⟨rfl, h⟩ | ⟨rfl, rfl, h⟩ | ⟨rfl, rfl, h⟩ | ⟨rfl, rfl, h⟩ |
    ⟨rfl, rfl, h⟩ | ⟨rfl, h⟩ <;> rw [h] <;> rfl

end

theorem decodeCmd_format (w : CmdWord) : (decodeCmd w).format = .cmd16 := cmdInstr_format _ _ _ _ _ _

theorem encode_decodeHost (r : ReqWord) : encode (decodeHost r) = r.toNat := by
  rw [decodeHost, encode_hostInstr, packHost_fields]

theorem encode_decodeCmd (w : CmdWord) : encode (decodeCmd w) = w.toNat := by
  rw [decodeCmd, encode_cmdInstr, packCmd_fields]

/-- Settles O1: an instruction is the reading of its fields, the encoder packs those fields, and the decoder takes them
out of the packed word again. -/
theorem decodeOfEncodeIsTheInstruction : Obligations.DecodeOfEncodeIsTheInstruction := by
  intro i _
  cases hf : i.format with
  | hostop =>
    obtain ⟨op, arg, rfl⟩ := exists_hostInstr hf
    rw [encode_hostInstr, decode_hostop_toNat, decodeHost_packHost]
  | cmd16 =>
    obtain ⟨x1, c, x0, p1, p0, d, rfl⟩ := exists_cmdInstr hf
    rw [encode_cmdInstr, decode_cmd16_toNat, decodeCmd_packCmd]

/-- Settles O2: a decoded number is a word of the format, and the word is packed from its own fields. -/
theorem encodeOfDecodeIsTheWord : Obligations.EncodeOfDecodeIsTheWord := by
  intro f n i h
  cases f with
  | hostop =>
    obtain ⟨r, rfl, rfl⟩ := decode_hostop_eq_ok_iff.1 h
    exact ⟨Machine.decodeHost_format r, encode_decodeHost r⟩
  | cmd16 =>
    obtain ⟨w, rfl, rfl⟩ := decode_cmd16_eq_ok_iff.1 h
    exact ⟨decodeCmd_format w, encode_decodeCmd w⟩

/-! ### The rows of the opcode map (30_encoding R87) -/

/-- Every row of the requests fixes the field `op` and no other. -/
theorem rowMask_of_hostop {j : Instr} (hj : j.format = .hostop) : rowMask j = 0x700 := by
  cases j with
  | reserved000 | init | write | shutdown | incres | decres | getres | reserved111 => rfl
  | cmdNop00 | cmdWritePot0 | cmdWriteNopot | cmdShutdownPot0 | cmdShutdownNopot | cmdNop11 => cases hj

theorem rowMatch_hostInstr (op : OpField) (arg : Byte) : rowMatch (hostInstr op arg) = (packHost op 0).toNat := by
  rcases opField_cases op with rfl | rfl | rfl | rfl | rfl | rfl | rfl | rfl <;> rfl

/-- A request selects a row exactly when the row's `op` is the request's. -/
theorem selects_row_iff_of_hostop (r : ReqWord) {j : Instr} (hj : j.format = .hostop) :
    r.toNat &&& rowMask j = rowMatch j ↔ rowMatch j = rowMatch (decodeHost r) := by
  have hmask : r.toNat &&& 0x700 = rowMatch (decodeHost r) := by
    rw [decodeHost, rowMatch_hostInstr, ← Laws.host_and (reqOp r) (reqArg r), packHost_fields]
  rw [rowMask_of_hostop hj, hmask, eq_comm]

/-- A command word with the given fields selects a row exactly when its own row is that one: the no-op rows are told
apart by C alone, the others by C and P0. -/
theorem packCmd_selects_row_iff (x1 c x0 : BitVec 2) (p1 p0 : Bit) (d : Byte) {j : Instr} (hj : j.format = .cmd16) :
    (packCmd x1 c x0 p1 p0 d).toNat &&& rowMask j = rowMatch j ↔ rowMatch j = rowMatch (cmdInstr x1 c x0 p1 p0 d) := by
  rw [rowMatch_cmdInstr]
  cases j with
  | cmdNop00 | cmdNop11 =>
    simp only [rowMask, rowMatch, Laws.cmd_and_c]
    revert c p0
    decide
  | cmdWritePot0 | cmdWriteNopot | cmdShutdownPot0 | cmdShutdownNopot =>
    simp only [rowMask, rowMatch, Laws.cmd_and_c_p0]
    revert c p0
    decide
  | reserved000 | init | write | shutdown | incres | decres | getres | reserved111 => cases hj

theorem selects_row_iff_of_cmd16 (w : CmdWord) {j : Instr} (hj : j.format = .cmd16) :
    w.toNat &&& rowMask j = rowMatch j ↔ rowMatch j = rowMatch (decodeCmd w) := by
  rw [decodeCmd, ← packCmd_selects_row_iff _ _ _ _ _ _ hj, packCmd_fields]

/-- Settles O3: the masked word is the field, or the two fields, by which the rows of its format differ. -/
theorem opcodeMapRowsAreDisjointAndComplete : Obligations.OpcodeMapRowsAreDisjointAndComplete := by
  refine ⟨fun f n i h j hj => ?_, fun n hn => ⟨_, if_pos hn⟩, fun n hn => ⟨_, if_pos hn⟩⟩
  cases f with
  | hostop =>
    obtain ⟨r, rfl, rfl⟩ := decode_hostop_eq_ok_iff.1 h
    exact selects_row_iff_of_hostop r hj
  | cmd16 =>
    obtain ⟨w, rfl, rfl⟩ := decode_cmd16_eq_ok_iff.1 h
    exact selects_row_iff_of_cmd16 w hj

end Sys2Proof

namespace Sys2Proof.Machine

open Sys2Proof.Safety

/-! ### The ports run what their decoders read (30_encoding R71, R73) -/

theorem step_frame {s : State} {w : CmdWord} {rest : List Input} (h : s.inputs = .frame w :: rest) :
    step s = exec (decodeCmd w) { s with inputs := rest } := by
  simp [step, nextAct, h, takeInput, deviceReads]

theorem decodeTableWord_eq_some {nbits n : Nat} {i : Instr} (h : decodeTableWord nbits n = some i) :
    decode (tableFormat nbits n) n = .ok i := by
  unfold decodeTableWord at h
  cases hd : decode (tableFormat nbits n) n with
  | ok j =>
    rw [hd] at h
    exact congrArg Except.ok (Option.some.inj h)
  | error e =>
    rw [hd] at h
    cases h

/-- A number placed by `withFetchWord` is run as the very next act (log 1, 2). -/
theorem step_withFetchWord {nbits n : Nat} {i : Instr} (h : decodeTableWord nbits n = some i) (s : State) :
    step (s.withFetchWord nbits n) = exec i s := by
  have hdecode := decodeTableWord_eq_some h
  cases hf : tableFormat nbits n with
  | hostop =>
    obtain ⟨r, rfl, rfl⟩ := decode_hostop_eq_ok_iff.1 (hf ▸ hdecode)
    exact step_request (by simp [State.withFetchWord, wordInput, hf])
  | cmd16 =>
    obtain ⟨w, rfl, rfl⟩ := decode_cmd16_eq_ok_iff.1 (hf ▸ hdecode)
    exact step_frame (by simp [State.withFetchWord, wordInput, hf])

/-- Settles O8: a port's step runs its decoder's reading, which is that of `decode` at the port's format. -/
theorem stepRunsTheDecodedInstruction : Obligations.StepRunsTheDecodedInstruction := by
  refine ⟨fun s r i rest hi hd => ?_, fun s w i rest hi hd => ?_, fun s nbits n i hd => step_withFetchWord hd s⟩
  · rw [decode_hostop_toNat] at hd
    cases hd
    exact step_request hi
  · rw [decode_cmd16_toNat] at hd
    cases hd
    exact step_frame hi

/-! ### Assembly lines (30_encoding R75 to R77) -/

/-- The operation that a mnemonic names, with its operand (30_encoding R76). -/
def asmInstr : AsmOp → Byte → Instr
  | .init => .init
  | .write => .write
  | .shutdown => .shutdown
  | .incres => .incres
  | .decres => .decres
  | .getres => .getres

theorem assemble_of_wellFormed {l : AsmLine} (h : l.wellFormed = true) :
    assemble l = some (asmInstr l.op (BitVec.ofNat 8 (l.operand.getD 0))) := by
  obtain ⟨op, operand⟩ := l
  cases op <;> exact if_pos h

theorem assemble_of_illFormed {l : AsmLine} (h : l.wellFormed = false) : assemble l = none := by
  simp [assemble, h]

theorem wellFormed_operand_iff (op : AsmOp) (n : Nat) :
    AsmLine.wellFormed ⟨op, some n⟩ = true ↔ op ≠ .init ∧ op ≠ .getres ∧ n ≤ 255 := by
  cases op <;> simp [AsmLine.wellFormed, AsmLine.arityOk, AsmLine.rangeOk]

/-- An operand spells an operation in 0 to 255 only, and not with INIT or GETRES. -/
theorem assemble_operand_eq_none {op : AsmOp} {n : Nat} (h : op = .init ∨ op = .getres ∨ 255 < n) :
    assemble ⟨op, some n⟩ = none := by
  refine assemble_of_illFormed (Bool.eq_false_iff.2 fun hwf => ?_)
  obtain ⟨hinit, hgetres, hn⟩ := (wellFormed_operand_iff op n).1 hwf
  rcases h with h | h | h
  · exact hinit h
  · exact hgetres h
  · exact Nat.not_lt.2 hn h

theorem assemble_operand {op : AsmOp} {n : Nat} (hinit : op ≠ .init) (hgetres : op ≠ .getres) (hn : n ≤ 255) :
    assemble ⟨op, some n⟩ = some (asmInstr op (BitVec.ofNat 8 n)) :=
  assemble_of_wellFormed ((wellFormed_operand_iff op n).2 ⟨hinit, hgetres, hn⟩)

/-- Settles O7: the two checks of R76 decide the lines with an operand; the six lines without one are evaluated. -/
theorem assemblyLinesSpellOperations : Obligations.AssemblyLinesSpellOperations := by
  refine ⟨fun op n hn => assemble_operand_eq_none (.inr (.inr hn)), fun n hn => ?_, rfl, rfl, rfl, rfl, rfl, rfl⟩
  exact ⟨assemble_operand_eq_none (.inl rfl), assemble_operand_eq_none (.inr (.inl rfl)),
    assemble_operand nofun nofun hn, assemble_operand nofun nofun hn, assemble_operand nofun nofun hn,
    assemble_operand nofun nofun hn⟩

/-! ### INIT and GETRES ignore their operand (30_encoding R75) -/

/-- From `s`, the states reached with the operand `a` and with another one: they agree but for the operand in the new
`REQ` event, which records `a` where the history grew. -/
structure OperandIgnored (s : State) (a : Byte) (sa sb : State) : Prop where
  agree : sb = { sa with block := { sa.block with trace := sb.block.trace } }
  history : sb.block.trace.map forgetArg = sa.block.trace.map forgetArg
  recorded : sa.block.trace ≠ s.block.trace → ∃ op evs, sa.block.trace = s.block.trace ++ .req op a :: evs

/-- One next state for both operands, with no event: a request not taken, or a fault (60_exceptions R200). -/
theorem operandIgnored_of_sameHistory {s t : State} (a : Byte) (ht : t.block.trace = s.block.trace) :
    OperandIgnored s a t t :=
  ⟨rfl, rfl, fun h => absurd ht h⟩

/-- Two next states whose histories grew by the request, each with its operand, and the same events after it. -/
theorem operandIgnored_of_recorded {s sa sb : State} {a b : Byte} (op : OpField) (evs : List Event)
    (ha : sa.block.trace = s.block.trace ++ .req op a :: evs) (hb : sb.block.trace = s.block.trace ++ .req op b :: evs)
    (h : sb = { sa with block := { sa.block with trace := sb.block.trace } }) : OperandIgnored s a sa sb :=
  ⟨h, by simp [ha, hb, forgetArg], fun _ => ⟨op, evs, ha⟩⟩

theorem initFields_operandIgnored (s : State) (a b : Byte) : OperandIgnored s a (initFields a s) (initFields b s) := by
  rw [initFields_eq, initFields_eq]
  exact operandIgnored_of_recorded opInit _ rfl rfl rfl

theorem getresAccepted_operandIgnored (s : State) (a b : Byte) :
    OperandIgnored s a (getresAccepted a s) (getresAccepted b s) := by
  cases hw : s.block.wiper with
  | none =>
    rw [getresAccepted_undef hw, getresAccepted_undef hw]
    exact operandIgnored_of_sameHistory a rfl
  | some p =>
    rw [getresAccepted_read hw, getresAccepted_read hw]
    exact operandIgnored_of_recorded (b := b) 0b110#3 [.done .ok] (by simp) (by simp) rfl

/-- Whether a request is accepted does not depend on its operand (60_exceptions R206). -/
theorem onRequest_operandIgnored (op : OpField) {g : Byte → State → State} {s sa : State} {a b : Byte}
    (hg : OperandIgnored s a (g a s) (g b s)) (h : onRequest op s (g a) = .next sa) :
    ∃ sb, onRequest op s (g b) = .next sb ∧ OperandIgnored s a sa sb := by
  unfold onRequest at h ⊢
  split at h
  case isTrue hfaulted =>
    cases h
    exact ⟨s, if_pos hfaulted, operandIgnored_of_sameHistory a rfl⟩
  case isFalse hfaulted =>
    rw [if_neg hfaulted]
    cases hk : requestFault op s.block.phase with
    | some k =>
      rw [hk] at h
      cases h
      exact ⟨_, rfl, operandIgnored_of_sameHistory a rfl⟩
    | none =>
      rw [hk] at h
      cases h
      exact ⟨_, rfl, hg⟩

/-- Settles O19: the operand reaches the `REQ` event of an accepted request and nothing else. -/
theorem initAndGetresIgnoreTheirOperand : Obligations.InitAndGetresIgnoreTheirOperand := by
  intro s sa a b f hf h
  obtain ⟨sb, hb, hsame⟩ : ∃ sb, exec (f b) s = .next sb ∧ OperandIgnored s a sa sb := by
    rcases hf with rfl | rfl
    · exact onRequest_operandIgnored opInit (initFields_operandIgnored s a b) h
    · exact onRequest_operandIgnored 0b110#3 (getresAccepted_operandIgnored s a b) h
  exact ⟨sb, hb, hsame.agree, hsame.history, hsame.recorded⟩

/-! ### The words the block submits (30_encoding R84) -/

/-- The encoder's words are the 512 of R84. -/
theorem encodeCommand_range (opc : Opcode) (p : Byte) :
    (0x1100 ≤ (encodeCommand opc p).toNat ∧ (encodeCommand opc p).toNat ≤ 0x11FF) ∨
      (0x2100 ≤ (encodeCommand opc p).toNat ∧ (encodeCommand opc p).toNat ≤ 0x21FF) := by
  have hp := p.isLt
  cases opc with
  | write =>
    rw [encodeCommand_write, BitVec.toNat_ofNat]
    omega
  | shutdown =>
    rw [encodeCommand_shutdown, BitVec.toNat_ofNat]
    omega

section
variable {w : CmdWord}

theorem Accepted.tx_mem {s t : State} {i : Instr} (h : Accepted s i t) (hw : .tx w ∈ t.block.trace) :
    .tx w ∈ s.block.trace := by
  cases h <;> simpa using hw

/-- A `TX` event is new only in SUBMIT, and it carries the latched word (41_transaction_sequencer R123). -/
theorem BlockEffect.tx_mem {s : State} {b : Block} (h : BlockEffect s b) (hw : .tx w ∈ b.trace) :
    .tx w ∈ s.block.trace ∨ (s.block.phase = .submit ∧ s.block.curWord = some w) := by
  cases h with
  | submit hp =>
    rcases submit_block s with e | ⟨v, hv, e⟩ <;> rw [e] at hw
    · exact .inl hw
    · rcases List.mem_append.1 hw with hold | hnew
      · exact .inl hold
      · cases List.mem_singleton.1 hnew
        exact .inr ⟨hp, hv⟩
  | reset => cases hw
  | accepted _ _ _ _ _ _ _ ha => exact .inl (ha.tx_mem hw)
  | init => exact .inl (by simpa [initFields_eq] using hw)
  | failedPoll n =>
    rcases failedPoll_block n s with e | e <;> rw [e] at hw
    · exact .inl hw
    · exact .inl (by simpa using hw)
  | commit =>
    rcases commit_cases s with e | ⟨_, e⟩ | ⟨p, _, _, e⟩ <;> rw [e] at hw
    · exact .inl hw
    · exact .inl (by simpa using hw)
    · exact .inl (by simpa using hw)
  | same | requestFault | waitTx | waitRx => exact .inl hw
  | csAssert | csDeassert | drain => exact .inl (by simpa using hw)

end

/-- Settles O53: a new `TX` carries the latched word, which the invariant says is an encoded command. -/
theorem submittedWordsAreCommands : Obligations.SubmittedWordsAreCommands := by
  intro s t hi hst w hw
  rcases (step_effect hst).tx_mem hw with hold | ⟨hp, hlatched⟩
  · exact .inl hold
  · obtain ⟨opc, p, _, _, hword⟩ := hi.latch (by rw [hp]; rfl)
    obtain rfl : encodeCommand opc p = w := Option.some.inj (hword.symm.trans hlatched)
    exact .inr (encodeCommand_range opc p)

end Sys2Proof.Machine

/-! The command encoder and the command words (40_command_encoder): the laws of ENCODE (R103), and what the device does
with each row of words (R104 to R107), read off from the fields C and P0 that the row's mask leaves. -/

namespace Sys2Proof

section
variable {w : CmdWord} {c : BitVec 2} {p0 : Bit}

/-- The mask `0x3000` leaves the field C of a word (30_encoding R78). -/
theorem extract_c_of_and (h : w &&& 0x3000#16 = packCmd 0 c 0 0 0 0) : w.extractLsb' 12 2 = c := by
  rw [← packCmd_fields w, packCmd_and_c] at h
  have hc := congrArg (BitVec.extractLsb' 12 2) h
  rwa [packCmd_c, packCmd_c] at hc

/-- The mask `0x3100` leaves the fields C and P0 of a word (30_encoding R78). -/
theorem extract_c_p0_of_and (h : w &&& 0x3100#16 = packCmd 0 c 0 0 p0 0) :
    w.extractLsb' 12 2 = c ∧ w.extractLsb' 8 1 = p0 := by
  rw [← packCmd_fields w, packCmd_and_c_p0] at h
  have hc := congrArg (BitVec.extractLsb' 12 2) h
  have hp := congrArg (BitVec.extractLsb' 8 1) h
  rw [packCmd_c, packCmd_c] at hc
  rw [packCmd_p0, packCmd_p0] at hp
  exact ⟨hc, hp⟩

/-- The device's reading of a word whose masked fields are `c` and `p0`, the don't-care bits as they stand. -/
theorem decodeCmd_of_and_c_p0 (h : w &&& 0x3100#16 = packCmd 0 c 0 0 p0 0) :
    decodeCmd w = cmdInstr (w.extractLsb' 14 2) c (w.extractLsb' 10 2) (w.extractLsb' 9 1) p0 (w.setWidth 8) := by
  obtain ⟨hc, hp⟩ := extract_c_p0_of_and h
  rw [decodeCmd, hc, hp, BitVec.setWidth_eq_extractLsb' (by decide)]

/-- The device's reading of a word whose masked field C is `c`. -/
theorem decodeCmd_of_and_c (h : w &&& 0x3000#16 = packCmd 0 c 0 0 0 0) :
    decodeCmd w = cmdInstr (w.extractLsb' 14 2) c (w.extractLsb' 10 2) (w.extractLsb' 9 1) (w.extractLsb' 8 1)
      (w.extractLsb' 0 8) := by
  rw [decodeCmd, extract_c_of_and h]

end

end Sys2Proof

namespace Sys2Proof.Machine

/-! ### The laws of ENCODE (40_command_encoder R103) -/

/-- The payload reaches no bit at or above 8: there the word is the opcode's constant. -/
theorem encodeCommand_extract_of_le (opc : Opcode) (p : Byte) (k len : Nat) (hk : 8 ≤ k) :
    (encodeCommand opc p).extractLsb' k len = (opcodeConst opc).extractLsb' k len := by
  have hp : (p.setWidth 16).extractLsb' k len = 0#len := by
    ext i hi
    simp [show 8 ≤ k + i by omega]
  rw [encodeCommand, BitVec.extractLsb'_or, hp, BitVec.or_zero]

/-- The opcode's constant reaches no bit below 8: there the word is the payload. -/
theorem encodeCommand_extract_payload (opc : Opcode) (p : Byte) : (encodeCommand opc p).extractLsb' 0 8 = p := by
  have hconst : (opcodeConst opc).extractLsb' 0 8 = 0#8 := by cases opc <;> rfl
  rw [encodeCommand, BitVec.extractLsb'_or, hconst, BitVec.zero_or, BitVec.extractLsb'_setWidth_of_le (by decide),
    BitVec.extractLsb'_eq_self]

/-- The OR is the concatenation of the constant's high byte and the payload. -/
theorem encodeCommand_eq_append (opc : Opcode) (p : Byte) :
    encodeCommand opc p = (opcodeConst opc).extractLsb' 8 8 ++ p := by
  calc encodeCommand opc p
      = (encodeCommand opc p).extractLsb' 8 8 ++ (encodeCommand opc p).extractLsb' 0 8 :=
        (BitVec.extractLsb'_append_extractLsb' (w := 8) (len := 8)).symm
    _ = (opcodeConst opc).extractLsb' 8 8 ++ p := by
        rw [encodeCommand_extract_of_le opc p 8 8 le_rfl, encodeCommand_extract_payload]

/-- The device tells the encoder's words apart, so they are distinct. -/
theorem encodeCommand_inj {opc opc' : Opcode} {p p' : Byte} (h : encodeCommand opc p = encodeCommand opc' p') :
    opc = opc' ∧ p = p' := by
  have hread := congrArg decodeCmd h
  rw [decodeCmd_encodeCommand, decodeCmd_encodeCommand] at hread
  cases opc with
  | write =>
    cases opc' with
    | write =>
      cases hread
      exact ⟨rfl, rfl⟩
    | shutdown => cases hread
  | shutdown =>
    cases opc' with
    | write => cases hread
    | shutdown =>
      cases hread
      exact ⟨rfl, rfl⟩

/-- Settles O5: the fields at or above bit 8 are evaluated on the two constants; below it the word is the payload. -/
theorem commandEncoderLaws : Obligations.CommandEncoderLaws := by
  have hhigh := encodeCommand_extract_of_le
  refine ⟨encodeCommand_extract_payload, fun p => hhigh _ p 8 8 (by decide), fun p => hhigh _ p 8 8 (by decide),
    fun p => hhigh _ p 12 2 (by decide), fun p => hhigh _ p 12 2 (by decide), fun opc p => ?_,
    fun _ _ _ _ => encodeCommand_inj, encodeCommand_eq_append⟩
  rw [hhigh opc p 8 1 (by decide), hhigh opc p 14 2 (by decide), hhigh opc p 10 2 (by decide),
    hhigh opc p 9 1 (by decide)]
  cases opc <;> decide

/-! ### The rows of the command words (40_command_encoder R104 to R107) -/

/-- Settles O57: the row's words have C = 01 and P0 = 1, and the device takes their data byte. -/
theorem cmdWritePot0SetsTheDeviceWiper : Obligations.CmdWritePot0SetsTheDeviceWiper := by
  intro s w hw
  have hread : decodeCmd w = .cmdWritePot0 _ _ _ (w.setWidth 8) := decodeCmd_of_and_c_p0 (c := 1) (p0 := 1) hw
  have hstays : s.device.shutdown = false → (s.device.shutdown && Config.freeShutdown s.freeIndex) = false :=
    fun h => by rw [h, Bool.false_and]
  exact ⟨_, _, _, _, hread, rfl, rfl, rfl, hstays, rfl, rfl, rfl, rfl⟩

/-- Settles O58: the row's words have C = 10 and P0 = 1, and the device's next state is without their data byte. -/
theorem cmdShutdownPot0EntersShutdown : Obligations.CmdShutdownPot0EntersShutdown := by
  intro s w hw
  have hread : decodeCmd w = .cmdShutdownPot0 _ _ _ _ := decodeCmd_of_and_c_p0 (c := 2) (p0 := 1) hw
  exact ⟨_, _, _, _, _, hread, rfl, rfl, rfl, fun _ => rfl, rfl, rfl, rfl, rfl⟩

/-- Settles O59: C alone makes a word a no-op, and either row's instruction answers the state it is given. -/
theorem cmdNopsChangeNothing : Obligations.CmdNopsChangeNothing := by
  rintro s w (hw | hw)
  · have hread : decodeCmd w = .cmdNop00 _ _ _ _ _ := decodeCmd_of_and_c (c := 0) hw
    exact ⟨⟨_, _, _, _, _, .inl hread, rfl, rfl⟩, by rw [hread]; rfl⟩
  · have hread : decodeCmd w = .cmdNop11 _ _ _ _ _ := decodeCmd_of_and_c (c := 3) hw
    exact ⟨⟨_, _, _, _, _, .inr hread, rfl, rfl⟩, by rw [hread]; rfl⟩

/-- Settles O60: with P0 = 0 the words of C = 01 and C = 10 are the two rows that the device refuses. -/
theorem noPotWordsAreRefused : Obligations.NoPotWordsAreRefused := by
  refine fun s w => ⟨fun hw => ?_, fun hw => ?_⟩
  · have hread : decodeCmd w = .cmdWriteNopot _ _ _ _ := decodeCmd_of_and_c_p0 (c := 1) (p0 := 0) hw
    rw [hread]
    rfl
  · have hread : decodeCmd w = .cmdShutdownNopot _ _ _ _ := decodeCmd_of_and_c_p0 (c := 2) (p0 := 0) hw
    rw [hread]
    rfl

end Sys2Proof.Machine

/-! The transaction sequencer (41_transaction_sequencer): the accepting step (R120), what the block's step does in each
phase and their order (R121 to R128), the device at the closing edge (R125), and a whole transaction with a transport
that answers (R130 to R134). -/

namespace Sys2Proof.Machine

open Sys2Proof.Safety

/-! ### The accepting step (41_transaction_sequencer R120, R130, R132) -/

section
variable {s : State}

theorem exec_write_idle (hp : s.block.phase = .idle) (tap : Byte) :
    exec (.write tap) s = .next (txnStart .write tap (emit (.req 0b010#3 tap) s)) :=
  onRequest_idle (writeAccepted tap) hp rfl (by decide)

theorem exec_shutdown_idle (hp : s.block.phase = .idle) (payload : Byte) :
    exec (.shutdown payload) s = .next (txnStart .shutdown payload (emit (.req 0b011#3 payload) s)) :=
  onRequest_idle (shutdownAccepted payload) hp rfl (by decide)

end

/-- Settles O20: the accepted WRITE is recorded and latched, with its word as command byte and payload. -/
theorem writeStartsItsTransaction : Obligations.WriteStartsItsTransaction := by
  intro s tap hp
  have hword : encodeCommand .write tap = 0x11#8 ++ tap := encodeCommand_eq_append .write tap
  rw [exec_write_idle hp, ← hword]
  rfl

/-- Settles O21: the accepted SHUTDOWN is recorded and latched, with its word as command byte and payload. -/
theorem shutdownStartsItsTransaction : Obligations.ShutdownStartsItsTransaction := by
  intro s payload hp
  have hword : encodeCommand .shutdown payload = 0x21#8 ++ payload := encodeCommand_eq_append .shutdown payload
  rw [exec_shutdown_idle hp, ← hword]
  rfl

/-! ### The block's step in each phase (41_transaction_sequencer R121 to R128) -/

section
variable {s : State}

theorem blockStep_csAssert (hp : s.block.phase = .csAssert) : blockStep s = .next (csAssert s) := by
  simp only [blockStep, hp]

theorem blockStep_waitTx (hp : s.block.phase = .waitTx) :
    blockStep s = awaitPhase s.transport.txFree .submit s := by
  simp only [blockStep, hp]

theorem blockStep_submit (hp : s.block.phase = .submit) : blockStep s = .next (submit s) := by
  simp only [blockStep, hp]

theorem blockStep_waitRx (hp : s.block.phase = .waitRx) :
    blockStep s = awaitPhase s.transport.rxAvail .csDeassert s := by
  simp only [blockStep, hp]

theorem blockStep_csDeassert (hp : s.block.phase = .csDeassert) : blockStep s = closeFrame (csDeassert s) := by
  simp only [blockStep, hp]

theorem blockStep_drain (hp : s.block.phase = .drain) : blockStep s = .next (drain s) := by
  simp only [blockStep, hp]

theorem blockStep_commit (hp : s.block.phase = .commit) : blockStep s = .next (commit s) := by
  simp only [blockStep, hp]

theorem awaitPhase_ready (next : Phase) (s : State) :
    awaitPhase true next s = .next { s with block := { s.block with phase := next } } := rfl

theorem awaitPhase_held (next : Phase) (hn : s.params.xportTimeout = none) :
    awaitPhase false next s = .fault .held := by
  simp [awaitPhase, hn]

/-- COMMIT's fields, at once (41_transaction_sequencer R128). -/
theorem commit_latched {opc : Opcode} {payload : Byte} (ho : s.block.curOpc = some opc)
    (hv : s.block.curPayload = some payload) :
    commit s =
      { s with
        block :=
          { s.block with
            wiper := if opc = .write then some payload else s.block.wiper
            status := some .ok
            phase := .idle
            trace := s.block.trace ++ [.done .ok] } } := by
  cases opc with
  | write => exact commit_write ho hv
  | shutdown => exact commit_shutdown ho

end

/-- Settles O28: the step of the phase CS_ASSERT. -/
theorem csAssertOpensTheFrame : Obligations.CsAssertOpensTheFrame := fun _ hp => blockStep_csAssert hp

/-- Settles O29: a wait goes on by its ready condition alone, which is read before the timeout; the hold needs both to
be absent. -/
theorem waitPhasesAwaitTheTransport : Obligations.WaitPhasesAwaitTheTransport := by
  refine fun s => ⟨fun hp hr => ?_, fun hp hr => ?_, fun hn hp hr => ?_, fun hn hp hr => ?_⟩
  · rw [blockStep_waitTx hp, hr, awaitPhase_ready]
  · rw [blockStep_waitRx hp, hr, awaitPhase_ready]
  · rw [blockStep_waitTx hp, hr, awaitPhase_held _ hn]
  · rw [blockStep_waitRx hp, hr, awaitPhase_held _ hn]

/-- Settles O30: the step of the phase SUBMIT with a full latch and an empty frame. -/
theorem submitSendsTheLatchedWord : Obligations.SubmitSendsTheLatchedWord := by
  intro s w hp hw hf
  rw [blockStep_submit hp, submit_some hw, hf]
  rfl

/-- Settles O32: the step of the phase DRAIN. -/
theorem drainDropsTheReceivedWord : Obligations.DrainDropsTheReceivedWord := fun _ hp => blockStep_drain hp

/-- Settles O33: the step of the phase COMMIT with a full latch. -/
theorem commitWritesTheWiperForWriteOnly : Obligations.CommitWritesTheWiperForWriteOnly := by
  intro s opc payload hp ho hv
  rw [blockStep_commit hp, commit_latched ho hv]

/-! ### The order of the phases (41_transaction_sequencer R127) -/

theorem failedPoll_phase (n : Nat) (s : State) :
    (failedPoll n s).block.phase = s.block.phase ∨ (failedPoll n s).block.phase = .faulted := by
  rcases failedPoll_block n s with e | e <;> rw [e]
  · exact .inl rfl
  · exact .inr rfl

/-- Settles O34: a step enters the next phase, is a failed poll, or faults on a latch that holds `⊥`. -/
theorem phasesRunInTheFixedOrder : Obligations.PhasesRunInTheFixedOrder := by
  intro s t _ he
  rcases blockStep_cases he with ⟨hp, rfl⟩ | ⟨hp, _, rfl⟩ | ⟨hp, _, n, hn, rfl⟩ | ⟨hp, rfl⟩ | ⟨hp, _, rfl⟩ |
    ⟨hp, _, n, hn, rfl⟩ | ⟨hp, hc⟩ | ⟨hp, rfl⟩ | ⟨hp, rfl⟩
  · exact .inl (by rw [hp]; rfl)
  · exact .inl (by rw [hp]; rfl)
  · exact (failedPoll_phase n s).elim (fun h => .inr (.inr ⟨h, .inl hp, n, hn⟩)) fun h => .inr (.inl h)
  · rcases submit_block s with e | ⟨w, _, e⟩ <;> rw [e, hp]
    · exact .inr (.inl rfl)
    · exact .inl rfl
  · exact .inl (by rw [hp]; rfl)
  · exact (failedPoll_phase n s).elim (fun h => .inr (.inr ⟨h, .inr hp, n, hn⟩)) fun h => .inr (.inl h)
  · obtain ⟨hblock, _⟩ := closeFrame_frame hc
    exact .inl (by rw [hblock, hp]; rfl)
  · exact .inl (by rw [hp]; rfl)
  · rcases commit_cases s with e | ⟨_, e⟩ | ⟨p, _, _, e⟩ <;> rw [e, hp]
    · exact .inr (.inl rfl)
    · exact .inl rfl
    · exact .inl rfl

/-! ### The device at the closing edge (41_transaction_sequencer R125, 40_command_encoder R104, R105) -/

/-- What an encoded command leaves of the device: a write its wiper at the payload, and a device that was not in
shutdown still out of it; a shutdown the device in shutdown. The rest is a free value (log 12). -/
def DeviceTook (opc : Opcode) (payload : Byte) (wasShutdown : Bool) (d : Device) : Prop :=
  match opc with
  | .write => d.wiper = payload ∧ (wasShutdown = false → d.shutdown = false)
  | .shutdown => d.shutdown = true

theorem deviceReads_took (opc : Opcode) (payload : Byte) (s : State) :
    ∃ t, deviceReads (encodeCommand opc payload) s = .next t ∧ DeviceTook opc payload s.device.shutdown t.device := by
  unfold deviceReads
  rw [decodeCmd_encodeCommand]
  cases opc with
  | write => exact ⟨_, rfl, rfl, fun h => by rw [h, Bool.false_and]⟩
  | shutdown => exact ⟨_, rfl, rfl⟩

/-- The closing edge answers a next state, whatever the rest of the machine, and leaves the device as `P` says. -/
def ClosesWith (P : Device → Prop) (d : Device) : Prop :=
  ∀ s : State, s.device = d → ∃ t, closeFrame s = .next t ∧ P t.device

/-- The device acts on the command its frame carried (log 11). -/
theorem closesWith_carries {d : Device} {opc : Opcode} {payload : Byte}
    (hf : d.frame = .carries (encodeCommand opc payload)) : ClosesWith (DeviceTook opc payload d.shutdown) d := by
  rintro s rfl
  unfold closeFrame
  rw [hf]
  exact deviceReads_took opc payload _

/-- Of a spoiled frame the spec says nothing (log 17, log 27). -/
theorem closesWith_interrupted {d : Device} (hf : d.frame = .interrupted) : ClosesWith (fun _ => True) d := by
  rintro s rfl
  unfold closeFrame
  rw [hf]
  exact ⟨_, rfl, trivial⟩

/-- Settles O31: the block's side is that of the phase, and the device acts on the command. -/
theorem csDeassertClosesTheFrameAtTheDevice : Obligations.CsDeassertClosesTheFrameAtTheDevice := by
  intro s opc payload hp hf
  obtain ⟨t, hc, hdev⟩ := closesWith_carries hf (csDeassert s) rfl
  obtain ⟨hblock, htransport, hparams, hinputs, hframe⟩ := closeFrame_frame hc
  refine ⟨t, (blockStep_csDeassert hp).trans hc, hblock, htransport, hparams, hinputs, hframe, ?_, ?_⟩
  · rintro rfl
    exact hdev
  · rintro rfl
    exact hdev

/-! ### A transaction with a transport that answers (41_transaction_sequencer R130 to R134) -/

theorem run_add {j : Nat} (k : Nat) {s t : State} (h : runSteps j s = .next t) :
    runSteps (j + k) s = runSteps k t := by
  induction j generalizing s with
  | zero =>
    cases h
    rw [Nat.zero_add]
  | succ j ih =>
    obtain ⟨u, hu, hj⟩ := run_succ_cases h
    rw [Nat.add_right_comm, run_succ _ hu, ih hj]

section
variable {s : State} {b : Block} {w : CmdWord} {opc : Opcode} {payload : Byte} {cs : Option Bit} {polls : Nat}
  {rest : List Input}

/-- The state in WAIT_RX of a transaction that began in CS_ASSERT, with its word `w` in the open frame. -/
def wordSent (w : CmdWord) (rest : List Input) (s : State) : State :=
  { s with
    block := midway s.block w .waitRx (some 0#1) 0
    transport := { s.transport with txFree := true, rxOwed := true }
    device := { s.device with frame := .carries w }
    inputs := rest }

/-- The block of a transaction that began in `b` with the word `w`, after its COMMIT (41_transaction_sequencer R128,
R134). -/
def finished (opc : Opcode) (payload : Byte) (w : CmdWord) (cs : Option Bit) (polls : Nat) (b : Block) : Block :=
  { b with
    wiper := if opc = .write then some payload else b.wiper
    phase := .idle
    csN := cs
    status := some .ok
    pollCount := polls
    trace := b.trace ++ frameEvents w }

theorem submit_midway (hb : s.block = midway b w .submit cs polls) (hw : b.curWord = some w)
    (hf : s.device.frame = .empty) :
    submit s =
      { s with
        block := midway b w .waitRx cs 0
        transport := { s.transport with rxOwed := true }
        device := { s.device with frame := .carries w } } := by
  have hlatch : s.block.curWord = some w := by rw [hb]; exact hw
  rw [submit_some hlatch, hf, hb]
  simp [midway, frameEvents, eventsBefore, Frame.carry]

theorem csDeassert_midway (hb : s.block = midway b w .csDeassert cs polls) :
    (csDeassert s).block = midway b w .drain (some 1#1) polls := by
  rw [csDeassert_block, hb]
  simp [midway, frameEvents, eventsBefore]

theorem drain_midway (hb : s.block = midway b w .drain cs polls) :
    (drain s).block = midway b w .commit cs polls := by
  rw [drain_block, hb]
  simp [midway, frameEvents, eventsBefore]

theorem commit_midway (hb : s.block = midway b w .commit cs polls) (ho : b.curOpc = some opc)
    (hv : b.curPayload = some payload) :
    commit s = { s with block := finished opc payload w cs polls b } := by
  rw [commit_latched (by rw [hb]; exact ho) (by rw [hb]; exact hv), hb]
  simp [finished, midway, frameEvents, eventsBefore]

/-- The first four acts: CS_ASSERT, the free slot, WAIT_TX and SUBMIT. -/
theorem run_wordSent (hp : s.block.phase = .csAssert) (hw : s.block.curWord = some w)
    (hi : s.inputs = .block :: .txFree true :: .block :: .block :: rest) :
    runSteps 4 s = .next (wordSent w rest s) :=
  calc runSteps 4 s
    _ = runSteps 3
          { s with
            block := midway s.block w .waitTx (some 0#1) 0
            device := { s.device with frame := .empty }
            inputs := .txFree true :: .block :: .block :: rest } :=
      run_succ 3 ((step_block hi).trans (blockStep_csAssert hp))
    _ = runSteps 2
          { s with
            block := midway s.block w .waitTx (some 0#1) 0
            transport := { s.transport with txFree := true }
            device := { s.device with frame := .empty }
            inputs := .block :: .block :: rest } :=
      run_succ 2 (step_txFree rfl)
    _ = runSteps 1
          { s with
            block := midway s.block w .submit (some 0#1) 0
            transport := { s.transport with txFree := true }
            device := { s.device with frame := .empty }
            inputs := .block :: rest } :=
      run_succ 1 ((step_block rfl).trans (blockStep_waitTx rfl))
    _ = .next (wordSent w rest s) :=
      run_succ 0 ((step_block rfl).trans ((blockStep_submit rfl).trans (congrArg _ (submit_midway rfl hw rfl))))

/-- The answer of the transport, and WAIT_RX. -/
theorem run_answered {rx : CmdWord} (hb : s.block = midway b w .waitRx cs polls) (howed : s.transport.rxOwed = true)
    (hi : s.inputs = .receive rx :: .block :: rest) :
    ∃ t, runSteps 2 s = .next t ∧ t.block = midway b w .csDeassert cs polls ∧
      t.transport = ⟨s.transport.txFree, true, rx, false⟩ ∧ t.device = s.device ∧ t.params = s.params ∧
      t.inputs = rest := by
  have hwait : s.block.phase = .waitRx := by rw [hb]; rfl
  refine ⟨_, (run_succ 1 (step_receive hi howed)).trans
    (run_succ 0 ((step_block rfl).trans (blockStep_waitRx (by exact hwait)))), ?_, rfl, rfl, rfl, rfl⟩
  rw [hb]
  rfl

/-- The closing phases, with what the device does at the edge. -/
theorem run_closed {P : Device → Prop} (hb : s.block = midway b w .csDeassert cs polls) (ho : b.curOpc = some opc)
    (hv : b.curPayload = some payload) (hdev : ClosesWith P s.device)
    (hi : s.inputs = .block :: .block :: .block :: rest) :
    ∃ t, runSteps 3 s = .next t ∧ t.block = finished opc payload w (some 1#1) polls b ∧
      t.transport = { s.transport with rxAvail := false } ∧ P t.device ∧ t.device.frame = .empty ∧
      t.params = s.params ∧ t.inputs = rest := by
  obtain ⟨e, hc, hP⟩ := hdev (csDeassert { s with inputs := .block :: .block :: rest }) rfl
  obtain ⟨hblock, htransport, hparams, hinputs, hframe⟩ := closeFrame_frame hc
  have hclosing : s.block.phase = .csDeassert := by rw [hb]; rfl
  have hclosed : step s = .next e := (step_block hi).trans ((blockStep_csDeassert (by exact hclosing)).trans hc)
  have he : e.block = midway b w .drain (some 1#1) polls := hblock.trans (csDeassert_midway hb)
  have hdrain : e.block.phase = .drain := by rw [he]; rfl
  have hdrained : step e = .next (drain { e with inputs := .block :: rest }) :=
    (step_block hinputs).trans (blockStep_drain (by exact hdrain))
  have hcommitted : step (drain { e with inputs := .block :: rest }) =
      .next { drain e with block := finished opc payload w (some 1#1) polls b, inputs := rest } :=
    (step_block rfl).trans ((blockStep_commit rfl).trans
      (congrArg _ (commit_midway (by exact drain_midway he) ho hv)))
  refine ⟨_, (run_succ 2 hclosed).trans ((run_succ 1 hdrained).trans (run_succ 0 hcommitted)), rfl, ?_, hP, hframe,
    hparams, rfl⟩
  rw [drain_transport, htransport, csDeassert_transport]

end

/-- The request `op arg` is accepted with a transaction of `opc` and `payload`, whatever the acts to come. -/
def Starts (op : OpField) (arg : Byte) (opc : Opcode) (payload : Byte) (s : State) : Prop :=
  ∀ acts, exec (hostInstr op arg) { s with inputs := acts } =
    .next (txnStart opc payload (emit (.req op arg) { s with inputs := acts }))

theorem starts_write {s : State} (hp : s.block.phase = .idle) (tap : Byte) : Starts 2#3 tap .write tap s :=
  fun _ => exec_write_idle (by exact hp) tap

theorem starts_shutdown {s : State} (hp : s.block.phase = .idle) (payload : Byte) :
    Starts 3#3 payload .shutdown payload s :=
  fun _ => exec_shutdown_idle (by exact hp) payload

/-- What an answered transaction of `opc` and `payload`, asked for in `s` by `op arg`, leaves of the block and the
transport (41_transaction_sequencer R134). -/
structure AnsweredTxn (op : OpField) (arg : Byte) (opc : Opcode) (payload : Byte) (rx : CmdWord) (rest : List Input)
    (s t : State) : Prop where
  block : t.block = completed s.block op arg opc payload (encodeCommand opc payload)
    (if opc = .write then some payload else s.block.wiper)
  transport : t.transport = ⟨true, false, rx, false⟩
  frame : t.device.frame = .empty
  params : t.params = s.params
  inputs : t.inputs = rest

section
variable {s : State} {op : OpField} {arg : Byte} {opc : Opcode} {payload : Byte} {rx : CmdWord} {rest : List Input}

/-- The block and the history of a whole transaction: the request and then the frame. -/
theorem finished_txnStart (s : State) (op : OpField) (arg : Byte) (opc : Opcode) (payload : Byte) :
    finished opc payload (encodeCommand opc payload) (some 1#1) 0 (txnStart opc payload (emit (.req op arg) s)).block =
      completed s.block op arg opc payload (encodeCommand opc payload)
        (if opc = .write then some payload else s.block.wiper) := by
  simp [finished, completed, frameEvents, txnStart, emit]

/-- The request and the first half of its transaction. -/
theorem run_request_wordSent (hx : Starts op arg opc payload s)
    (hi : s.inputs = .request (packHost op arg) :: .block :: .txFree true :: .block :: .block :: rest) :
    runSteps 5 s =
      .next (wordSent (encodeCommand opc payload) rest (txnStart opc payload (emit (.req op arg) s))) := by
  have hreq := step_request hi
  rw [decodeHost_packHost, hx] at hreq
  rw [run_succ 4 hreq, run_wordSent rfl rfl rfl]
  rfl

/-- The second half, from a state that agrees with `wordSent` but for what has become of the frame. -/
theorem run_answeredTxn {P : Device → Prop} {m : State}
    (hb : m.block =
      midway (txnStart opc payload (emit (.req op arg) s)).block (encodeCommand opc payload) .waitRx (some 0#1) 0)
    (htransport : m.transport = { s.transport with txFree := true, rxOwed := true }) (hparams : m.params = s.params)
    (hdev : ClosesWith P m.device)
    (hi : m.inputs = .receive rx :: .block :: .block :: .block :: .block :: rest) :
    ∃ t, runSteps 5 m = .next t ∧ AnsweredTxn op arg opc payload rx rest s t ∧ P t.device := by
  obtain ⟨u, hanswered, hublock, hutransport, hudevice, huparams, huinputs⟩ :=
    run_answered hb (by rw [htransport]) hi
  obtain ⟨t, hclosed, htblock, httransport, hP, hframe, htparams, htinputs⟩ :=
    run_closed hublock rfl rfl (hudevice ▸ hdev) huinputs
  refine ⟨t, (run_add 3 hanswered).trans hclosed, ⟨?_, ?_, hframe, ?_, htinputs⟩, hP⟩
  · rw [htblock, finished_txnStart]
  · rw [httransport, hutransport, htransport]
  · rw [htparams, huparams, hparams]

/-- An answered request takes the device through its command. -/
theorem run_answeredRequest (hx : Starts op arg opc payload s)
    (hi : s.inputs = answeredRequest (packHost op arg) rx ++ rest) :
    ∃ t, runSteps 10 s = .next t ∧ AnsweredTxn op arg opc payload rx rest s t ∧
      DeviceTook opc payload s.device.shutdown t.device := by
  obtain ⟨t, hrun, ht⟩ := run_answeredTxn (s := s) (m := wordSent (encodeCommand opc payload) _ _) rfl rfl rfl
    (closesWith_carries rfl) rfl
  exact ⟨t, (run_add 5 (run_request_wordSent hx hi)).trans hrun, ht⟩

/-- With a bus error in the frame the block does the same, and the device is free (60_exceptions R210, log 27). -/
theorem run_answeredWithBusError (hx : Starts op arg opc payload s)
    (hi : s.inputs = answeredWithBusError (packHost op arg) rx ++ rest) :
    ∃ t, runSteps 11 s = .next t ∧ AnsweredTxn op arg opc payload rx rest s t := by
  have hspoiled := run_snoc (run_request_wordSent hx hi) (step_busError rfl)
  obtain ⟨t, hrun, ht, _⟩ := run_answeredTxn (s := s) (m := busError (wordSent (encodeCommand opc payload) _ _))
    rfl rfl rfl (closesWith_interrupted rfl) rfl
  exact ⟨t, (run_add 5 hspoiled).trans hrun, ht⟩

end

/-- Settles O38: WRITE starts a write of its tap; without a bus error the device takes that tap. -/
theorem answeredWriteSetsTheTap : Obligations.AnsweredWriteSetsTheTap := by
  refine fun s tap rx rest hp => ⟨fun hi => ?_, fun hi => ?_⟩
  · obtain ⟨t, hrun, ht, hwiper, hshutdown⟩ := run_answeredRequest (starts_write hp tap) hi
    exact ⟨t, hrun, ht.block, ht.transport, hwiper, ht.frame, hshutdown, ht.params, ht.inputs⟩
  · obtain ⟨t, hrun, ht⟩ := run_answeredWithBusError (starts_write hp tap) hi
    exact ⟨t, hrun, ht.block, ht.transport, ht.frame, ht.params, ht.inputs⟩

/-- Settles O39: SHUTDOWN starts a transaction whose COMMIT leaves the wiper, whatever the payload. -/
theorem answeredShutdownKeepsTheTap : Obligations.AnsweredShutdownKeepsTheTap := by
  intro s payload rx rest hp hi
  obtain ⟨t, hrun, ht, hdown⟩ := run_answeredRequest (starts_shutdown hp payload) hi
  exact ⟨t, hrun, ht.block, ht.transport, hdown, ht.frame, ht.params, ht.inputs⟩

end Sys2Proof.Machine

/-! The wiper bounds logic (42_wiper_bounds): the accepting step of INCRES and DECRES on either side of its bound (R150,
R153, R155, R156), and the laws of whole moves (R154, R159). -/

namespace Sys2Proof.Machine

open Sys2Proof.Safety

/-! ### The accepting step (42_wiper_bounds R150 to R156) -/

/-- A request rejected in IDLE (42_wiper_bounds R152): its status and its two events, with no bus activity. -/
def rejectedRequest (op : OpField) (arg : Byte) (s : State) : State :=
  { s with
    block :=
      { s.block with
        status := some .rejected
        trace := s.block.trace ++ [.req op arg, .done .rejected] } }

section
variable {s : State} {p delta : Byte}

theorem done_rejected_idle (hp : s.block.phase = .idle) (op : OpField) (arg : Byte) :
    done .rejected (emit (.req op arg) s) = rejectedRequest op arg s := by
  simp [done, emit, rejectedRequest, ← hp]

/-- The latch of a write, with the payload and the word as the numbers of 42_wiper_bounds R159. -/
theorem txnStart_write_toNat {q : Byte} {n : Nat} (hq : q.toNat = n) (op : OpField) (arg : Byte) (s : State) :
    txnStart .write q (emit (.req op arg) s) =
      { s with
        block :=
          { s.block with
            curOpc := some .write
            curPayload := some (BitVec.ofNat 8 n)
            curWord := some (BitVec.ofNat 16 (0x1100 + n))
            phase := .csAssert
            trace := s.block.trace ++ [.req op arg] } } := by
  have hpayload : BitVec.ofNat 8 n = q := by rw [← hq, BitVec.ofNat_toNat, BitVec.setWidth_eq]
  rw [hpayload, ← hq, ← encodeCommand_write]
  rfl

theorem exec_incres_reject (hp : s.block.phase = .idle) (hw : s.block.wiper = some p) (hd : p.toNat < delta.toNat) :
    exec (.incres delta) s = .next (rejectedRequest 4#3 delta s) := by
  rw [← done_rejected_idle hp, ← incresAccepted_reject hw hd]
  exact onRequest_idle _ hp rfl (by decide)

theorem exec_incres_move (hp : s.block.phase = .idle) (hw : s.block.wiper = some p) (hd : delta.toNat ≤ p.toNat) :
    exec (.incres delta) s = .next (txnStart .write (p - delta) (emit (.req 4#3 delta) s)) := by
  rw [← incresAccepted_move hw hd]
  exact onRequest_idle _ hp rfl (by decide)

theorem exec_decres_reject (hp : s.block.phase = .idle) (hw : s.block.wiper = some p)
    (hd : 255 < p.toNat + delta.toNat) :
    exec (.decres delta) s = .next (rejectedRequest 5#3 delta s) := by
  rw [← done_rejected_idle hp, ← decresAccepted_reject hw hd]
  exact onRequest_idle _ hp rfl (by decide)

theorem exec_decres_move (hp : s.block.phase = .idle) (hw : s.block.wiper = some p)
    (hd : p.toNat + delta.toNat ≤ 255) :
    exec (.decres delta) s = .next (txnStart .write (p + delta) (emit (.req 5#3 delta) s)) := by
  rw [← decresAccepted_move hw hd]
  exact onRequest_idle _ hp rfl (by decide)

end

/-- Settles O22: on either side of the bound `delta > p`, up to which the byte difference is exact. -/
theorem incresLowersTheTapOrRejects : Obligations.IncresLowersTheTapOrRejects := by
  intro s p delta hp hw
  split
  next hd => exact exec_incres_reject hp hw hd
  next hd =>
    have hrange : delta.toNat ≤ p.toNat := Nat.le_of_not_gt hd
    rw [exec_incres_move hp hw hrange, txnStart_write_toNat (BitVec.toNat_sub_of_le hrange)]

/-- Settles O23: on either side of the bound `p + delta > 255`, up to which the byte sum is exact. -/
theorem decresRaisesTheTapOrRejects : Obligations.DecresRaisesTheTapOrRejects := by
  intro s p delta hp hw
  split
  next hd => exact exec_decres_reject hp hw hd
  next hd =>
    have hrange : p.toNat + delta.toNat ≤ 255 := Nat.le_of_not_gt hd
    rw [exec_decres_move hp hw hrange, txnStart_write_toNat (BitVec.toNat_add_of_lt (Nat.lt_succ_of_le hrange))]

/-! ### Whole moves (42_wiper_bounds R154, R159) -/

section
variable {s : State} {p d q : Byte} {op : OpField} {rx : CmdWord} {rest : List Input}

theorem starts_incres (hp : s.block.phase = .idle) (hw : s.block.wiper = some p) (hd : d.toNat ≤ p.toNat) :
    Starts 4#3 d .write (p - d) s :=
  fun _ => exec_incres_move (by exact hp) (by exact hw) hd

theorem starts_decres (hp : s.block.phase = .idle) (hw : s.block.wiper = some p) (hd : p.toNat + d.toNat ≤ 255) :
    Starts 5#3 d .write (p + d) s :=
  fun _ => exec_decres_move (by exact hp) (by exact hw) hd

/-- An answered move is one complete frame of its word, and shadow and device end at its tap. -/
theorem run_answeredMove (hx : Starts op d .write q s) (hi : s.inputs = answeredRequest (packHost op d) rx ++ rest) :
    ∃ t, runSteps 10 s = .next t ∧ t.device.wiper = q ∧
      t.block = completed s.block op d .write q (BitVec.ofNat 16 (0x1100 + q.toNat)) (some q) := by
  obtain ⟨t, hrun, ht, hwiper, _⟩ := run_answeredRequest hx hi
  exact ⟨t, hrun, hwiper, encodeCommand_write q ▸ ht.block⟩

/-- A rejected move takes its accepting step only. -/
theorem run_rejectedMove
    (hx : exec (hostInstr op d) { s with inputs := rest } = .next (rejectedRequest op d { s with inputs := rest }))
    (hi : s.inputs = .request (packHost op d) :: rest) :
    ∃ t, runSteps 1 s = .next t ∧ t.device = s.device ∧ t.transport = s.transport ∧
      t.block = (rejectedRequest op d s).block := by
  have hstep := step_request hi
  rw [decodeHost_packHost, hx] at hstep
  exact ⟨_, run_succ 0 hstep, rfl, rfl, rfl⟩

end

/-- Settles O40: the four laws of 42_wiper_bounds R159, by the two runs that a move can have. -/
theorem boundsLawsOfTheMoves : Obligations.BoundsLawsOfTheMoves := by
  refine fun s p d rx rest hp hw => ⟨fun hd hi => ?_, fun hd hi => ?_, fun hd hi => ?_, fun hd hi => ?_⟩
  · obtain ⟨t, hrun, hdev, hblock⟩ := run_answeredMove (starts_incres hp hw hd) hi
    exact ⟨t, p - d, hrun, BitVec.toNat_sub_of_le hd, hdev, hblock⟩
  · exact run_rejectedMove (exec_incres_reject (by exact hp) (by exact hw) hd) hi
  · obtain ⟨t, hrun, hdev, hblock⟩ := run_answeredMove (starts_decres hp hw hd) hi
    exact ⟨t, p + d, hrun, BitVec.toNat_add_of_lt (Nat.lt_succ_of_le hd), hdev, hblock⟩
  · exact run_rejectedMove (exec_decres_reject (by exact hp) (by exact hw) hd) hi

/-- A zero delta is in range for both moves, and its write is of the current tap. -/
theorem starts_zeroDelta {s : State} {p : Byte} {op : OpField} (hop : op = 4#3 ∨ op = 5#3)
    (hp : s.block.phase = .idle) (hw : s.block.wiper = some p) : Starts op 0#8 .write p s := by
  rcases hop with rfl | rfl
  · have hmove := starts_incres (d := 0#8) hp hw (Nat.zero_le _)
    rwa [BitVec.sub_zero] at hmove
  · have hmove := starts_decres (d := 0#8) hp hw (Nat.le_of_lt_succ p.isLt)
    rwa [BitVec.add_zero] at hmove

/-- Settles O41: the answered run of the write that a zero delta starts. -/
theorem zeroDeltaStillWrites : Obligations.ZeroDeltaStillWrites := by
  intro s p rx rest op hop hp hw hi
  obtain ⟨t, hrun, ht, _⟩ := run_answeredRequest (starts_zeroDelta hop hp hw) hi
  exact ⟨t, hrun, ht.block⟩

end Sys2Proof.Machine

/-! The resistance function (43_resistance): its value as a quotient (R170), its order on the taps (R177) and its ends
(R171, R179), and the accepting step of GETRES (R176). -/

namespace Sys2Proof.Machine

/-! ### The function on the taps (43_resistance R170 to R179) -/

section
variable {l w : Nat} {p q : Byte}

/-- R170 from tap 1 on, with the shift as the quotient that it is. -/
theorem resistance_of_pos (hp : 1 ≤ p.toNat) : resistance l w p = l * p.toNat / 256 + w := by
  have hne : p ≠ 0#8 := by
    rintro rfl
    exact absurd hp (by decide)
  rw [resistance_of_ne_zero l w hne, Nat.shiftRight_eq_div_pow]

theorem resistance_eq_ite (l w : Nat) (p : Byte) :
    resistance l w p = if p.toNat = 0 then l + w else l * p.toNat / 256 + w := by
  split
  next hzero => rw [BitVec.eq_of_toNat_eq (y := 0#8) hzero, resistance_zero]
  next hpos => exact resistance_of_pos (Nat.one_le_iff_ne_zero.2 hpos)

theorem resistance_mono (hp : 1 ≤ p.toNat) (hpq : p.toNat ≤ q.toNat) : resistance l w p ≤ resistance l w q := by
  rw [resistance_of_pos hp, resistance_of_pos (hp.trans hpq)]
  exact Nat.add_le_add_right (Nat.div_le_div_right (Nat.mul_le_mul_left l hpq)) w

/-- One tap adds `l / 256`, which for `l ≥ 256` is enough to raise the quotient by one. -/
theorem resistance_strictMono (hl : 256 ≤ l) (hp : 1 ≤ p.toNat) (hpq : p.toNat < q.toNat) :
    resistance l w p < resistance l w q := by
  rw [resistance_of_pos hp, resistance_of_pos (hp.trans hpq.le)]
  have hstep : l * p.toNat + 256 ≤ l * q.toNat :=
    calc
      l * p.toNat + 256 ≤ l * p.toNat + l := Nat.add_le_add_left hl _
      _ = l * (p.toNat + 1) := (Nat.mul_succ l p.toNat).symm
      _ ≤ l * q.toNat := Nat.mul_le_mul_left l hpq
  have hquot : l * p.toNat / 256 < l * q.toNat / 256 :=
    calc
      l * p.toNat / 256 < (l * p.toNat + 256) / 256 := by
        rw [Nat.add_div_right _ (by decide)]
        exact Nat.lt_succ_self _
      _ ≤ l * q.toNat / 256 := Nat.div_le_div_right hstep
  exact Nat.add_lt_add_right hquot w

/-- The taps from 1 on take less than the whole ladder, which tap 0 takes (R171). -/
theorem resistance_lt_zero_tap (hl : 1 ≤ l) (hp : 1 ≤ p.toNat) : resistance l w p < resistance l w 0#8 := by
  rw [resistance_of_pos hp, resistance_zero]
  have hproduct : l * p.toNat < 256 * l := by
    rw [Nat.mul_comm 256]
    exact Nat.mul_lt_mul_of_pos_left p.isLt hl
  exact Nat.add_lt_add_right (Nat.div_lt_of_lt_mul hproduct) w

end

/-- Settles O25: a quotient by 256 is monotone, and a tap below 256 leaves it under the whole ladder. -/
theorem resistanceIsMonotoneFromTapOne : Obligations.ResistanceIsMonotoneFromTapOne := fun _ _ =>
  ⟨fun _ _ hp hpq => resistance_mono hp hpq.le, fun hl _ _ hp hpq => resistance_strictMono hl hp hpq,
    fun hl _ hp => resistance_lt_zero_tap hl hp⟩

/-- Settles O27: tap 0 by its own case, the other taps by the quotient. -/
theorem resistanceAtTheEnds : Obligations.ResistanceAtTheEnds := by
  intro l w
  exact ⟨resistance_zero l w, resistance_of_pos (by decide), resistance_of_pos (by decide),
    resistance_of_pos (by decide), resistance_of_pos (by decide)⟩

/-! ### The accepting step (43_resistance R176) -/

/-- GETRES from IDLE completes at once: result, status and history are written, and the phase stays IDLE. -/
theorem exec_getres_idle {s : State} {p : Byte} (hp : s.block.phase = .idle) (hw : s.block.wiper = some p)
    (arg : Byte) :
    exec (.getres arg) s = .next
      { s with
        block :=
          { s.block with
            resOhms := some (resistanceOhms s.params.ladderOhms s.params.wiperOhms p)
            status := some .ok
            trace := s.block.trace ++ [.req 6#3 arg, .done .ok] } } := by
  have haccept : exec (.getres arg) s = .next (getresAccepted arg s) := onRequest_idle _ hp rfl (by decide)
  rw [haccept, getresAccepted_read hw]
  simp [done, emit, ← hp]

/-- Settles O24: what GETRES writes is the exact value, which R15 makes fit the 32 bits of the output (R173). -/
theorem getresReadsTheResistance : Obligations.GetresReadsTheResistance := by
  intro s arg p hp hw hwf
  exact ⟨resistanceOhms s.params.ladderOhms s.params.wiperOhms p,
    (resistanceOhms_toNat hwf p).trans (resistance_eq_ite _ _ p), exec_getres_idle hp hw arg⟩

end Sys2Proof.Machine

/-! The lifecycle (44_lifecycle): INIT, the one request that UNINIT accepts (R190 to R192). -/

namespace Sys2Proof.Machine

/-- No fault of R206 meets INIT in UNINIT. -/
theorem requestFault_init_uninit : requestFault opInit .uninit = none :=
  (requestFault_eq_none opInit .uninit (by decide)).2 ⟨rfl, .inl ⟨rfl, rfl⟩⟩

/-- INIT is accepted in UNINIT (44_lifecycle R190). -/
theorem exec_init_uninit {s : State} (hp : s.block.phase = .uninit) (arg : Byte) :
    exec (.init arg) s = .next (initFields arg s) := by
  rcases onRequest_cases opInit s (initFields arg) with ⟨hfaulted, _⟩ | ⟨_, k, hfault, _⟩ | ⟨_, _, haccept⟩
  · simp [hp] at hfaulted
  · rw [hp, requestFault_init_uninit] at hfault
    cases hfault
  · exact haccept

/-- Settles O18: the request is accepted, and INIT's writes together give the state of R190. -/
theorem initInitializesTheBlock : Obligations.InitInitializesTheBlock := by
  intro s arg hp
  rw [exec_init_uninit hp, initFields_eq]
  rfl

end Sys2Proof.Machine

/-! The faults (60_exceptions): the fault a request raises and the one it does not (R201 to R203, R206, R207), a faulted
block (R200, R214), and the bounded wait (R205). -/

namespace Sys2Proof.Machine

open Sys2Proof.Safety

/-! ### The conditions on a request, in their order (60_exceptions R206) -/

section
variable {op : OpField} {ph : Phase}

theorem requestFault_reserved (hr : opReserved op = true) : requestFault op ph = some .illegalOp :=
  if_pos hr

theorem requestFault_transaction (hr : ¬opReserved op = true) (ht : ph.isTransaction = true) :
    requestFault op ph = some .busy :=
  (if_neg hr).trans (if_pos ht)

theorem requestFault_uninit (hr : ¬opReserved op = true) (ht : ¬ph.isTransaction = true)
    (hu : ph = .uninit ∧ op ≠ opInit) : requestFault op ph = some .notInit :=
  (if_neg hr).trans ((if_neg ht).trans (if_pos hu))

theorem requestFault_secondInit (hr : ¬opReserved op = true) (ht : ¬ph.isTransaction = true)
    (hd : ph = .idle ∧ op = opInit) : requestFault op ph = some .doubleInit :=
  (if_neg hr).trans ((if_neg ht).trans ((if_neg fun hu => hu.2 hd.2).trans (if_pos hd)))

theorem requestFault_accepted (hr : ¬opReserved op = true) (ht : ¬ph.isTransaction = true)
    (hu : ¬(ph = .uninit ∧ op ≠ opInit)) (hd : ¬(ph = .idle ∧ op = opInit)) : requestFault op ph = none :=
  (if_neg hr).trans ((if_neg ht).trans ((if_neg hu).trans (if_neg hd)))

end

theorem opInit_not_reserved : ¬opReserved opInit = true := by decide

theorem ne_faulted_of_isTransaction {ph : Phase} (ht : ph.isTransaction = true) : ph ≠ .faulted := by
  rintro rfl
  cases ht

/-- A host operation whose code is not reserved (30_encoding R73, R74). -/
def DefinedOp (i : Instr) : Prop := i.format = .hostop ∧ ¬opReserved (hostOp i) = true

/-- The operations other than INIT, as R201 lists them. -/
theorem definedOp_of_mem {i : Instr} {arg : Byte}
    (hi : i ∈ [Instr.write arg, .shutdown arg, .incres arg, .decres arg, .getres arg]) :
    DefinedOp i ∧ hostOp i ≠ opInit := by
  revert i
  simp [DefinedOp, Instr.format, hostOp, opReserved, opInit]

/-- Settles O9: the reserved codes are the first condition of R206. -/
theorem reservedCodesRaiseIllegalOp : Obligations.ReservedCodesRaiseIllegalOp := fun _ _ hp =>
  ⟨exec_host_fault rfl hp (requestFault_reserved rfl), exec_host_fault rfl hp (requestFault_reserved rfl)⟩

/-- Settles O10: UNINIT is no transaction phase, and none of the five operations is INIT. -/
theorem operationsBeforeInitRaiseNotInit : Obligations.OperationsBeforeInitRaiseNotInit := by
  intro s arg hp i hi
  obtain ⟨⟨hformat, hdefined⟩, hinit⟩ := definedOp_of_mem hi
  refine exec_host_fault hformat (by simp [hp]) (requestFault_uninit hdefined ?_ ⟨hp, hinit⟩)
  simp [hp, Phase.isTransaction]

/-- Settles O11: IDLE is no transaction phase. -/
theorem secondInitRaisesDoubleInit : Obligations.SecondInitRaisesDoubleInit := by
  intro s arg hp
  have hfault : requestFault opInit s.block.phase = some .doubleInit :=
    requestFault_secondInit opInit_not_reserved (by simp [hp, Phase.isTransaction]) ⟨hp, rfl⟩
  exact exec_host_fault (i := .init arg) rfl (by simp [hp]) hfault

/-- Settles O12: of the conditions on a request only the reserved codes come before BUSY. -/
theorem requestsInATransactionRaiseBusy : Obligations.RequestsInATransactionRaiseBusy := by
  intro s arg ht i hi
  obtain ⟨hformat, hdefined⟩ : DefinedOp i := by
    rcases List.mem_cons.1 hi with rfl | hi
    · exact ⟨rfl, opInit_not_reserved⟩
    · exact (definedOp_of_mem hi).1
  exact exec_host_fault hformat (ne_faulted_of_isTransaction ht) (requestFault_transaction hdefined ht)

/-! ### A request that is accepted (60_exceptions R206 item 6) -/

/-- The block took a request: it raised no fault, and its history goes on with the request's event. -/
structure TookRequest (op : OpField) (arg : Byte) (b b' : Block) : Prop where
  running : b'.phase ≠ .faulted
  faults : b'.faults = b.faults
  recorded : ∃ evs, b'.trace = b.trace ++ .req op arg :: evs

theorem initFields_tookRequest (arg : Byte) (s : State) : TookRequest opInit arg s.block (initFields arg s).block := by
  rw [initFields_eq]
  exact ⟨nofun, rfl, _, rfl⟩

/-- With a wiper that holds a value, an operation accepted in IDLE reads no `⊥` (60_exceptions R204). -/
theorem Accepted.tookRequest {s t : State} {i : Instr} (h : Accepted s i t) (hw : s.block.wiper ≠ none) :
    ∃ op arg, i = hostInstr op arg ∧ TookRequest op arg s.block t.block := by
  cases h with
  | write tap => exact ⟨2, tap, rfl, nofun, rfl, [], rfl⟩
  | shutdown payload => exact ⟨3, payload, rfl, nofun, rfl, [], rfl⟩
  | incresUndef _ hn | decresUndef _ hn | getresUndef _ hn => exact absurd hn hw
  | incresReject delta => exact ⟨4, delta, rfl, nofun, rfl, [.done .rejected], by simp⟩
  | incres delta => exact ⟨4, delta, rfl, nofun, rfl, [], rfl⟩
  | decresReject delta => exact ⟨5, delta, rfl, nofun, rfl, [.done .rejected], by simp⟩
  | decres delta => exact ⟨5, delta, rfl, nofun, rfl, [], rfl⟩
  | getres arg => exact ⟨6, arg, rfl, nofun, rfl, [.done .ok], by simp⟩

/-- A request that meets none of the conditions of R206 is taken. -/
theorem exec_decodeHost_tookRequest {s : State} {r : ReqWord} (hp : s.block.phase ≠ .faulted)
    (hn : requestFault (reqOp r) s.block.phase = none) (hw : s.block.phase = .idle → s.block.wiper ≠ none) :
    ∃ t, exec (decodeHost r) s = .next t ∧ TookRequest (reqOp r) (reqArg r) s.block t.block := by
  rcases exec_host_cases (decodeHost_format r) s with
    ⟨hfaulted, _⟩ | ⟨_, k, hk, _⟩ | ⟨_, arg, hi, e⟩ | ⟨hidle, t, ha, e⟩
  · exact absurd hfaulted hp
  · rw [decodeHost, hostOp_hostInstr, hn] at hk
    cases hk
  · obtain rfl := eq_packHost_of_decodeHost (op := opInit) (arg := arg) hi
    rw [reqOp_packHost, reqArg_packHost]
    exact ⟨_, e, initFields_tookRequest arg s⟩
  · obtain ⟨op, arg, hi, ht⟩ := ha.tookRequest (hw hidle)
    obtain rfl := eq_packHost_of_decodeHost hi
    rw [reqOp_packHost, reqArg_packHost]
    exact ⟨t, e, ht⟩

/-- A faulted block does not take a request (60_exceptions R206 item 1; log 5). -/
theorem exec_host_of_faulted {i : Instr} (hi : i.format = .hostop) {s : State} (hp : s.block.phase = .faulted) :
    exec i s = .next s := by
  rcases exec_host_cases hi s with ⟨_, e⟩ | ⟨h, _⟩ | ⟨h, _⟩ | ⟨h, _⟩
  · exact e
  · exact absurd hp h
  · simp [hp] at h
  · simp [hp] at h

/-! ### The fields of a request as numbers (30_encoding R70) -/

section
variable (r : ReqWord)

theorem reqOp_eq_ofNat : reqOp r = BitVec.ofNat 3 (r.toNat / 256) :=
  congrArg (BitVec.ofNat 3) (Nat.shiftRight_eq_div_pow r.toNat 8)

theorem reqArg_eq_ofNat : reqArg r = BitVec.ofNat 8 (r.toNat % 256) := by
  apply BitVec.eq_of_toNat_eq
  simp [reqArg]

theorem reqOp_toNat : (reqOp r).toNat = r.toNat / 256 := by
  have hr := r.isLt
  rw [reqOp_eq_ofNat, BitVec.toNat_ofNat]
  omega

theorem opReserved_reqOp_iff : opReserved (reqOp r) = true ↔ r.toNat / 256 = 0 ∨ r.toNat / 256 = 7 := by
  rw [← reqOp_toNat]
  simp [opReserved, BitVec.toNat_eq]

theorem reqOp_eq_opInit_iff : reqOp r = opInit ↔ r.toNat / 256 = 1 := by
  rw [← reqOp_toNat]
  simp [opInit, BitVec.toNat_eq]

end

/-- Settles O13: the conditions of R206 in their order, each on the two fields of the request. -/
theorem requestFaultPriority : Obligations.RequestFaultPriority := by
  intro s r hw
  have hi := decodeHost_format r
  have hop : hostOp (decodeHost r) = reqOp r := hostOp_hostInstr _ _
  simp only [← opReserved_reqOp_iff, ← reqOp_eq_opInit_iff, ne_eq]
  rw [← reqOp_eq_ofNat, ← reqArg_eq_ofNat]
  split_ifs with hp hr ht hu hd
  · exact exec_host_of_faulted hi hp
  · exact exec_host_fault hi hp (hop ▸ requestFault_reserved hr)
  · exact exec_host_fault hi hp (hop ▸ requestFault_transaction hr ht)
  · exact exec_host_fault hi hp (hop ▸ requestFault_uninit hr ht hu)
  · exact exec_host_fault hi hp (hop ▸ requestFault_secondInit hr ht hd)
  · obtain ⟨t, e, hrunning, hfaults, evs, htrace⟩ :=
      exec_decodeHost_tookRequest hp (requestFault_accepted hr ht hu hd) hw
    exact ⟨t, evs, e, hrunning, hfaults, htrace⟩

/-! ### A faulted block (60_exceptions R200, R214) -/

/-- Each effect on the block belongs to a phase of its own, none of them FAULTED; a reset is the exception. -/
theorem BlockEffect.eq_of_faulted {s : State} {b : Block} (h : BlockEffect s b) (hp : s.block.phase = .faulted)
    (hr : ∀ rest, s.inputs ≠ .reset :: rest) : b = s.block := by
  cases h with
  | same => rfl
  | reset rest hi => exact absurd hi (hr rest)
  | requestFault _ _ _ _ hf => exact absurd hp hf
  | failedPoll _ h => simp [hp] at h
  | init _ _ _ h | accepted _ _ _ _ _ h | csAssert h | waitTx h | submit h | waitRx h | csDeassert h | drain h
  | commit h => cases hp.symm.trans h

/-- Settles O14: of what a step can do to a block, only a reset is done to a faulted one. -/
theorem onlyResetLeavesFaulted : Obligations.OnlyResetLeavesFaulted := fun _ _ hp hst hr =>
  (step_effect hst).eq_of_faulted hp hr

/-! ### The bounded wait (60_exceptions R205) -/

/-- The block awaits a transport that has not answered. -/
def Unanswered (s : State) : Prop :=
  s.block.phase = .waitTx ∧ s.transport.txFree = false ∨ s.block.phase = .waitRx ∧ s.transport.rxAvail = false

/-- The block after the poll that times out: the frame is released, and the wiper is not written. -/
def timedOut (b : Block) : Block :=
  { b with
    csN := some 1#1
    trace := b.trace ++ [.cs 1#1]
    faults := { b.faults with xportTimeout := true }
    phase := .faulted }

/-- The state with `k` failed polls counted and `rest` still to come. -/
def polled (k : Nat) (rest : List Input) (s : State) : State :=
  { s with block := { s.block with pollCount := k }, inputs := rest }

section
variable {s : State} {n : Nat}

theorem awaitPhase_poll (next : Phase) (hn : s.params.xportTimeout = some n) :
    awaitPhase false next s = .next (failedPoll n s) := by
  simp [awaitPhase, hn]

theorem blockStep_unanswered (hn : s.params.xportTimeout = some n) (hu : Unanswered s) :
    blockStep s = .next (failedPoll n s) := by
  rcases hu with ⟨hp, hr⟩ | ⟨hp, hr⟩
  · rw [blockStep_waitTx hp, hr, awaitPhase_poll _ hn]
  · rw [blockStep_waitRx hp, hr, awaitPhase_poll _ hn]

theorem failedPoll_counts (h : s.block.pollCount + 1 < n) :
    failedPoll n s = { s with block := { s.block with pollCount := s.block.pollCount + 1 } } :=
  if_pos h

theorem failedPoll_timesOut (h : n ≤ s.block.pollCount + 1) :
    failedPoll n s = raiseFault .xportTimeout (abortFrame (driveCs 1#1 s)) :=
  if_neg (Nat.not_lt.2 h)

theorem failedPoll_block_timedOut (h : n ≤ s.block.pollCount + 1) : (failedPoll n s).block = timedOut s.block := by
  rw [failedPoll_timesOut h, raiseFault, abortFrame_block]
  rfl

@[simp] theorem failedPoll_transport (n : Nat) (s : State) : (failedPoll n s).transport = s.transport := by
  rcases failedPoll_cases n s with ⟨_, h⟩ | ⟨_, h⟩ <;> simp [h]

/-- A scheduled poll of an unanswered wait fails, however many polls failed before it (log 23). -/
theorem step_polled (hn : s.params.xportTimeout = some n) (hu : Unanswered s) (k : Nat) (rest : List Input) :
    step (polled k (.block :: rest) s) = .next (failedPoll n (polled k rest s)) :=
  calc step (polled k (.block :: rest) s)
    _ = blockStep (polled k rest s) := step_block (s := polled k (.block :: rest) s) rfl
    _ = .next (failedPoll n (polled k rest s)) := blockStep_unanswered (s := polled k rest s) hn hu

/-- Below the `n`-th, `k` scheduled polls of an unanswered wait only count. -/
theorem run_polled (hn : s.params.xportTimeout = some n) (hu : Unanswered s) (hc : s.block.pollCount = 0) {k : Nat}
    (hk : k < max n 1) {rest : List Input} (hi : s.inputs = List.replicate k .block ++ rest) :
    runSteps k s = .next (polled k rest s) := by
  induction k generalizing rest with
  | zero =>
    have hsame : polled 0 rest s = s := by
      rw [polled, ← hc, show rest = s.inputs from hi.symm]
    rw [run_zero, hsame]
  | succ k ih =>
    have hprev : runSteps k s = .next (polled k (.block :: rest) s) :=
      ih (by omega) (by rw [hi, List.replicate_succ', List.append_assoc, List.singleton_append])
    have hbelow : (polled k rest s).block.pollCount + 1 < n := show k + 1 < n by omega
    have hcount : failedPoll n (polled k rest s) = polled (k + 1) rest s := failedPoll_counts hbelow
    exact run_snoc hprev (hcount ▸ step_polled hn hu k rest)

end

/-- Settles O35: an unanswered wait with a timeout takes the failed poll, on either side of its bound. -/
theorem failedPollCountsOrTimesOut : Obligations.FailedPollCountsOrTimesOut := by
  intro s n hn hu
  rw [blockStep_unanswered hn hu]
  refine ⟨fun hbelow => by rw [failedPoll_counts hbelow], fun hlast => ⟨_, rfl, ?_⟩⟩
  exact ⟨failedPoll_block_timedOut hlast, failedPoll_transport n s, failedPoll_params n s, failedPoll_inputs n s⟩

/-- Settles O36: the polls before the last only count, and the last one finds the bound reached. -/
theorem unansweredWaitTimesOutAfterNPolls : Obligations.UnansweredWaitTimesOutAfterNPolls := by
  intro s n rest hn hu hc hi
  obtain ⟨m, hm⟩ : ∃ m, max n 1 = m + 1 := ⟨max n 1 - 1, by omega⟩
  rw [hm] at hi ⊢
  have hpolls : ∀ k < m + 1,
      runSteps k s = .next (polled k (.block :: (List.replicate (m - k) .block ++ rest)) s) := by
    refine fun k hk => run_polled hn hu hc (hm ▸ hk) ?_
    rw [hi, ← List.cons_append, ← List.replicate_succ, ← List.append_assoc, List.replicate_append_replicate,
      show k + (m - k + 1) = m + 1 by omega]
  refine ⟨fun k hk => ⟨_, hpolls k hk, rfl⟩, _, run_snoc (hpolls m m.lt_succ_self) (step_polled hn hu _ _), ?_⟩
  have hlast : n ≤ m + 1 := hm ▸ le_max_left n 1
  exact failedPoll_block_timedOut hlast

end Sys2Proof.Machine

/-! Reset and the frame hazard (70_reset_and_hazards): what a reset leaves to the transport and the device (R231, R232),
and the steps that raise chip-select (R235). -/

namespace Sys2Proof.Machine

open Sys2Proof.Safety

/-! ### Reset outside a frame (70_reset_and_hazards R231) -/

/-- With no frame open, the block is all that a reset writes. -/
theorem resetBlock_of_no_frame {s : State} (hcs : s.block.csN ≠ some 0#1) :
    resetBlock s = { s with block := Block.reset } := by
  rcases resetBlock_cases s with ⟨hopen, _⟩ | ⟨_, h⟩
  · exact absurd (by simpa [frameOpen] using hopen) hcs
  · exact h

/-- Settles O17: in no case does a reset write the transport or the parameters, and it draws a free device only where it
cuts an open frame short. -/
theorem resetKeepsTransportAndIdleDevice : Obligations.ResetKeepsTransportAndIdleDevice := by
  intro s rest hi
  refine ⟨_, step_reset hi, resetBlock_transport _, resetBlock_params _, resetBlock_inputs _, fun hcs => ?_⟩
  rw [resetBlock_of_no_frame (s := { s with inputs := rest }) hcs]
  exact ⟨rfl, rfl⟩

/-! ### The steps that raise chip-select (70_reset_and_hazards R235) -/

@[simp] theorem submit_csN (s : State) : (submit s).block.csN = s.block.csN := by
  rcases submit_block s with h | ⟨w, _, h⟩ <;> simp [h]

@[simp] theorem commit_csN (s : State) : (commit s).block.csN = s.block.csN := by
  rcases commit_cases s with h | ⟨_, h⟩ | ⟨p, _, _, h⟩ <;> simp [h]

theorem Accepted.csN_eq {s t : State} {i : Instr} (h : Accepted s i t) : t.block.csN = s.block.csN := by
  cases h <;> rfl

/-- A failed poll that changes chip-select is the one that times out (60_exceptions R205). -/
theorem failedPoll_eq_timedOut_of_csN_ne {n : Nat} {s : State} (h : (failedPoll n s).block.csN ≠ s.block.csN) :
    (failedPoll n s).block = timedOut s.block := by
  rcases failedPoll_cases n s with ⟨_, he⟩ | ⟨hlast, _⟩
  · exact absurd (by rw [he]) h
  · exact failedPoll_block_timedOut hlast

/-- Chip-select goes high by INIT (44_lifecycle R190), at the end of a frame (41_transaction_sequencer R125) and by the
timeout abort (60_exceptions R205), and by nothing else. -/
theorem BlockEffect.csN_rises {s : State} {b : Block} (h : BlockEffect s b) (hlow : s.block.csN ≠ some 1#1)
    (hhigh : b.csN = some 1#1) :
    s.block.phase = .uninit ∨ s.block.phase = .csDeassert ∨
      ∃ n, s.params.xportTimeout = some n ∧ b = timedOut s.block := by
  have hne : b.csN ≠ s.block.csN := fun he => hlow (he ▸ hhigh)
  cases h with
  | init _ _ _ hp => exact .inl hp
  | csDeassert hp => exact .inr (.inl hp)
  | failedPoll n _ hn => exact .inr (.inr ⟨n, hn, failedPoll_eq_timedOut_of_csN_ne hne⟩)
  | reset | csAssert => simp [Block.reset] at hhigh
  | accepted _ _ _ _ _ _ _ ha => exact absurd ha.csN_eq hne
  | submit => exact absurd (submit_csN s) hne
  | commit => exact absurd (commit_csN s) hne
  | same | requestFault | waitTx | waitRx | drain => exact absurd rfl hne

/-- Settles O54: of the steps that raise chip-select, INIT finds the line undriven and so does not end a frame, and
CS_DEASSERT, which stands behind WAIT_RX, finds the received word available. -/
theorem chipSelectRisesOnlyAfterTheExchange : Obligations.ChipSelectRisesOnlyAfterTheExchange := by
  intro s s' hinv hst hlow hhigh
  rcases (step_effect hst).csN_rises (by simp [hlow]) hhigh with hp | hp | ⟨n, hn, habort⟩
  · have hundriven : s.block.csN = none := hinv.csN_eq hp (by decide)
    simp [hlow] at hundriven
  · obtain ⟨havail, _⟩ : ReceiveOk .csDeassert s.transport := hinv.receive_eq hp
    exact .inl ⟨hp, havail⟩
  · exact .inr ⟨n, hn, by rw [habort, timedOut], by rw [habort, timedOut]⟩

end Sys2Proof.Machine

/-! The decode vectors (95_test_vectors 2.2, 2.3): each word is packed from the fields that its vector lists, and a packed
word decodes to the instruction that its fields select. -/

namespace Sys2Proof

theorem decode_packHost (op : OpField) (arg : Byte) :
    decode .hostop (packHost op arg).toNat = .ok (hostInstr op arg) := by
  rw [decode_hostop_toNat, decodeHost_packHost]

theorem decode_packCmd (x1 c x0 : BitVec 2) (p1 p0 : Bit) (d : Byte) :
    decode .cmd16 (packCmd x1 c x0 p1 p0 d).toNat = .ok (cmdInstr x1 c x0 p1 p0 d) := by
  rw [decode_cmd16_toNat, decodeCmd_packCmd]

/-- Settles O4: every vector is an instance of the two decoders on packed words, at the fields `op arg` (V-HOP) or
`X1 C X0 P1 P0 D` (V-CMD) of the vector. -/
theorem decodeVectorsOfTheSpec : Obligations.DecodeVectorsOfTheSpec := by
  refine ⟨?hop1, ?hop4, ?hop5, ?hop6, ?hop7, ?hop8, ?hop10, ?hop12, ?cmd1, ?cmd2, ?cmd4, ?cmd5, ?cmd7⟩
  case hop1 => exact decode_packHost 0b000 0x00
  case hop4 => exact decode_packHost 0b001 0xFF
  case hop5 => exact decode_packHost 0b010 192
  case hop6 => exact decode_packHost 0b011 0
  case hop7 => exact decode_packHost 0b100 10
  case hop8 => exact decode_packHost 0b101 20
  case hop10 => exact decode_packHost 0b110 0xAB
  case hop12 => exact decode_packHost 0b111 0xFF
  case cmd1 => exact decode_packCmd 0b00 0b01 0b00 0 1 0xC0
  case cmd2 => exact decode_packCmd 0b00 0b10 0b00 0 1 0x00
  case cmd4 => exact decode_packCmd 0b00 0b11 0b11 1 1 0xFF
  case cmd5 => exact decode_packCmd 0b11 0b01 0b00 0 1 0xC0
  case cmd7 => exact decode_packCmd 0b00 0b01 0b00 0 0 0xC0

end Sys2Proof
